-- ==== Sys2Proof/Word.lean ====
section
/-! DEFINITION. The word types of the core, and the closed sets of names that command words carry
(buffers and descriptor kinds). -/

namespace Sys2Proof

/-- A byte of a buffer, of the flash array or of a bus phase. -/
abbrev Byte := BitVec 8

/-- A 32-bit register value or command word (10_state R22). -/
abbrev Word := BitVec 32

/-- `PAGE_SIZE` in bytes (00_scope R9). -/
abbrev pageSize : Nat := 64

/-- `BLOCK_SIZE` in bytes (00_scope R9). -/
abbrev blockSize : Nat := 16

/-- `ERASED`, the erased-value sentinel (00_scope R9). -/
abbrev erased : Byte := 0xFF

/-- The five byte buffers (10_state R34, 30_encoding R103). -/
inductive BufId where
  /-- `P`, plaintext. -/
  | P
  /-- `C`, ciphertext. -/
  | C
  /-- `E`, erase-verify read-back. -/
  | E
  /-- `R`, program read-back. -/
  | R
  /-- `D`, decrypted read-back. -/
  | D
  deriving DecidableEq, Repr

/-- The operation kinds of the descriptor table, in the source's enum order (30_encoding R105). -/
inductive Kind where
  | readStatus
  | writeEnable
  | sectorErase
  | quadPageProgram
  | quadIoRead
  deriving DecidableEq, Repr

end Sys2Proof
end

