-- ==== Sys2Proof/Config.lean ====
section
/-! DEFINITION. What is fixed for a machine: the open parameters of 00_scope R10, and the free values
(draws) of 00_scope R12 as constants without a body, so that nothing can be proved of their values. -/

namespace Sys2Proof

/-- The core's open parameters (00_scope R10, 10_state R21). Raw data; `Config.Valid` is the
constraint column of R10. `TARGET_ADDR` is not here: RUN reads it from `ADDR` (44_orchestrator R272). -/
structure Config where
  /-- `AES_KEY`, the bytes `k[0] .. k[15]` (40_cipher R141). -/
  aesKey : Vector Byte 16
  /-- `SECTOR_SIZE` in bytes. -/
  sectorSize : Nat
  /-- `DEVICE_SIZE` in bytes. -/
  deviceSize : Nat
  /-- `MAX_POLLS`: no bound, or at most that many polls. -/
  maxPolls : Option Nat
  /-- `MODE_PHASE_PRESENT`. -/
  modePhase : Bool
  deriving DecidableEq, Repr

/-- `n` is a power of two (00_scope R10, `SECTOR_SIZE`). -/
abbrev IsPowerOfTwo (n : Nat) : Prop := n = 2 ^ n.log2

/-- The constraint on `MAX_POLLS`: none, or `1 <= m <= 2^32 - 1` (00_scope R10, 43_busy_poll R243). -/
abbrev PollBoundValid : Option Nat → Prop
  | none => True
  | some m => 1 ≤ m ∧ m ≤ 2 ^ 32 - 1

/-- The constraints of 00_scope R10. -/
structure Config.Valid (c : Config) : Prop where
  sector_pow : IsPowerOfTwo c.sectorSize
  sector_page : c.sectorSize % pageSize = 0
  device_sector : c.deviceSize % c.sectorSize = 0
  device_bound : c.deviceSize ≤ 2 ^ 32
  polls : PollBoundValid c.maxPolls

/-- Free value: `AES_KEY` of the machine `State.reset` describes (00_scope R10: any value). -/
opaque Config.freeKey : Vector Byte 16

/-- DESIGN CHOICE (log 7): the parameters `State.reset` carries. Every statement about the launch
state is made of `State.launch c` for every `c`, so none rests on the two sizes chosen here. -/
def Config.reference : Config where
  aesKey := Config.freeKey
  sectorSize := 4096
  deviceSize := 0x10000
  maxPolls := none
  modePhase := true

/-- Free value: the transport status of the `n`-th transaction (42_transport R208, draw `ok`). -/
opaque Config.freeOk : Nat → Bool

/-- Free value: the engine's report at the `n`-th cipher call (40_cipher R161, draw `engineOk`). -/
opaque Config.freeEngine : Nat → Bool

/-- Free value: bits 7:1 of the `n`-th status byte (20_memory R74, draw `hi`). -/
opaque Config.freeHi : Nat → BitVec 7

/-- Free value: whether a busy device is still busy (20_memory R74, draw `wip`; true is 1). -/
opaque Config.freeWip : Nat → Bool

/-- Free value: the byte of the device array at an address that no erase or program has written
since the array's contents were last drawn: at launch (epoch 0; 10_state R43, 20_memory R70) or by a
failed transaction (20_memory R80). -/
opaque Config.memByte : (epoch : Nat) → (addr : Nat) → Byte

/-- Free value: `WEL` after the failed transaction that began an epoch (20_memory R80). -/
opaque Config.freeWel : (epoch : Nat) → Bool

/-- Free value: `BUSY` after the failed transaction that began an epoch (20_memory R80). -/
opaque Config.freeBusy : (epoch : Nat) → Bool

/-! ## The form of the Command Descriptor Table (41_descriptors R180) -/

/-- Lines a phase uses: 1, 2 or 4 (30_encoding R120). -/
inductive BusWidth where
  | single
  | dual
  | quad
  deriving DecidableEq, Repr

/-- One transfer per clock, or two (30_encoding R121). -/
inductive DataRate where
  | sdr
  | ddr
  deriving DecidableEq, Repr

/-- The direction of a data phase (42_transport R202). -/
inductive Direction where
  /-- The core drives. -/
  | write
  /-- The device drives. -/
  | read
  deriving DecidableEq, Repr

/-- The instruction phase of a descriptor. -/
structure InstrPhase where
  opcode : Byte
  width : BusWidth
  rate : DataRate
  disabled : Bool
  deriving DecidableEq, Repr

/-- The address sizes a descriptor may have, in bits: 0, 8, 24 or 32 (30_encoding R122). -/
inductive AddrSize where
  | none
  | bits8
  | bits24
  | bits32
  deriving DecidableEq, Repr

/-- The address phase of a descriptor. -/
structure AddrPhase where
  size : AddrSize
  width : BusWidth
  rate : DataRate
  disabled : Bool
  deriving DecidableEq, Repr

/-- The mode-bits phase of a descriptor. -/
structure ModePhase where
  value : Byte
  width : BusWidth
  rate : DataRate
  disabled : Bool
  deriving DecidableEq, Repr

/-- The dummy-cycles phase of a descriptor: a count of clocks; 0 is absent. -/
structure DummyPhase where
  count : Nat
  width : BusWidth
  deriving DecidableEq, Repr

/-- The data phase of a descriptor: present exactly when the transaction has a payload. -/
structure DataPhase where
  width : BusWidth
  rate : DataRate
  deriving DecidableEq, Repr

/-- The record of 41_descriptors R180. -/
structure CommandDescriptor where
  instruction : InstrPhase
  address : AddrPhase
  modeBits : ModePhase
  dummyCycles : DummyPhase
  data : DataPhase
  deriving DecidableEq, Repr

end Sys2Proof
end

