-- ==== Sys2Proof/Syntax.lean ====
section
/-! DEFINITION. The instructions: one constructor for each row of spec/opcode_table.json. The first
twelve are the command words the host writes to `CMD` (30_encoding R101); the last five are the
instruction bytes the flash device receives, each with the other phases of its frame as operands
(30_encoding R115, R118). -/

namespace Sys2Proof

inductive Instr where
  /-- `ENC src, dst, n` (40_cipher R162). -/
  | enc (src dst : BufId) (n : Nat)
  /-- `DEC src, dst, n` (40_cipher R163). -/
  | dec (src dst : BufId) (n : Nat)
  /-- `XACT ReadStatus` (42_transport R220). -/
  | xactReadStatus
  /-- `XACT WriteEnable` (42_transport R221). -/
  | xactWriteEnable
  /-- `XACT SectorErase` (42_transport R223). -/
  | xactSectorErase
  /-- `XACT QuadPageProgram, b` (42_transport R224). -/
  | xactQuadPageProgram (b : BufId)
  /-- `XACT QuadIoRead, b` (42_transport R225). -/
  | xactQuadIoRead (b : BufId)
  /-- `POLL` (43_busy_poll R240). -/
  | poll
  /-- `CHKFF b` (44_orchestrator R260). -/
  | chkff (b : BufId)
  /-- `FILL b` (44_orchestrator R261). -/
  | fill (b : BufId)
  /-- `CMP x, y` (44_orchestrator R262). -/
  | cmp (x y : BufId)
  /-- `RUN` (44_orchestrator R272). -/
  | run
  /-- The frame `05` (41_descriptors R185). -/
  | flashReadStatus
  /-- The frame `06` (41_descriptors R186). -/
  | flashWriteEnable
  /-- The frame `DC` with address `a` (41_descriptors R187). -/
  | flashSectorErase (a : Word)
  /-- The frame `34` with address `a` and the bytes `data` (41_descriptors R188). -/
  | flashQuadPageProgram (a : Word) (data : List Byte)
  /-- The frame `EC` with address `a` and, when present, the mode byte (41_descriptors R189). -/
  | flashQuadIoRead (a : Word) (mode : Option Byte)
  deriving DecidableEq, Repr

end Sys2Proof
end

