-- ==== Sys2Proof/WellFormed.lean ====
section
/-! DEFINITION. Which terms of `Instr` are instructions: the operand ranges that the types of the
operands do not already give (30_encoding R108, R128). -/

namespace Sys2Proof

/-- Block counts are 0 to 4 (30_encoding R108); a program frame carries 64 bytes (30_encoding R128). -/
def Instr.wellFormed : Instr → Bool
  | .enc _ _ n => decide (n ≤ 4)
  | .dec _ _ n => decide (n ≤ 4)
  | .xactReadStatus => true
  | .xactWriteEnable => true
  | .xactSectorErase => true
  | .xactQuadPageProgram _ => true
  | .xactQuadIoRead _ => true
  | .poll => true
  | .chkff _ => true
  | .fill _ => true
  | .cmp _ _ => true
  | .run => true
  | .flashReadStatus => true
  | .flashWriteEnable => true
  | .flashSectorErase _ => true
  | .flashQuadPageProgram _ data => decide (data.length = pageSize)
  | .flashQuadIoRead _ _ => true

/-- The check as a proposition. -/
abbrev Instr.WellFormed (i : Instr) : Prop := i.wellFormed = true

end Sys2Proof
end

