-- ==== Sys2Proof/Decode.lean ====
section
/-! DEFINITION. The decoder, total on every command word (30_encoding R109) and on every frame
(30_encoding R115 to R119), rejecting by name; then the encoder, written from the same tables. -/

namespace Sys2Proof

/-- Why bits are no instruction. The first three are the refusals of 30_encoding R109. -/
inductive Reject where
  /-- A reserved bit or a must-be-zero field is not 0 (30_encoding R106, R107). -/
  | reservedBits
  /-- An operand names no buffer, no descriptor or no block count (30_encoding R108). -/
  | operandRange
  /-- `OP` is 0x0 or 0x9 to 0xF (30_encoding R111). -/
  | reservedOpcode
  /-- The frame's instruction byte is none of the five (30_encoding R119). -/
  | unknownFlashOpcode
  /-- The frame's length is not one its instruction byte allows (30_encoding R117). -/
  | frameLength
  deriving DecidableEq, Repr

/-- The two forms an encoded instruction has: a word the host writes to `CMD` (30_encoding R100), or
the bytes of a QSPI frame in transmission order, the instruction byte first (30_encoding R115). -/
inductive Encoded where
  | command (w : Word)
  | frame (bytes : List Byte)
  deriving DecidableEq, Repr

/-! ## The command word (30_encoding R100 to R109) -/

/-- `OP`, bits [3:0]. -/
def fieldOp (w : Word) : Nat := (w.extractLsb' 0 4).toNat

/-- `A`, bits [7:4]. -/
def fieldA (w : Word) : Nat := (w.extractLsb' 4 4).toNat

/-- `B`, bits [11:8]. -/
def fieldB (w : Word) : Nat := (w.extractLsb' 8 4).toNat

/-- `N`, bits [15:12]. -/
def fieldN (w : Word) : Nat := (w.extractLsb' 12 4).toNat

/-- `Z`, bits [31:16]. -/
def fieldZ (w : Word) : Nat := (w.extractLsb' 16 16).toNat

/-- The buffer an id names (30_encoding R103). The decoder asks only for ids 0 to 4. -/
def bufOfId : Nat → BufId
  | 0 => .P
  | 1 => .C
  | 2 => .E
  | 3 => .R
  | _ => .D

/-- `XACT` with kind `a` and buffer field `b`, after the checks on `N` (30_encoding R105, R109). -/
def decodeXact (a b : Nat) : Except Reject Instr :=
  if a > 4 then .error .operandRange
  else if a ≤ 2 ∧ b ≠ 0 then .error .reservedBits
  else if a ≥ 3 ∧ b > 4 then .error .operandRange
  else match a with
    | 0 => .ok .xactReadStatus
    | 1 => .ok .xactWriteEnable
    | 2 => .ok .xactSectorErase
    | 3 => .ok (.xactQuadPageProgram (bufOfId b))
    | _ => .ok (.xactQuadIoRead (bufOfId b))

/-- `decode` of 30_encoding R109, the checks in the order written there. -/
def decodeCommand (w : Word) : Except Reject Instr :=
  let a := fieldA w
  let b := fieldB w
  let n := fieldN w
  if fieldZ w ≠ 0 then .error .reservedBits
  else match fieldOp w with
    | 0x1 =>
      if a > 4 ∨ b > 4 ∨ n > 4 then .error .operandRange
      else .ok (.enc (bufOfId a) (bufOfId b) n)
    | 0x2 =>
      if a > 4 ∨ b > 4 ∨ n > 4 then .error .operandRange
      else .ok (.dec (bufOfId a) (bufOfId b) n)
    | 0x3 => if n ≠ 0 then .error .reservedBits else decodeXact a b
    | 0x4 => if a ≠ 0 ∨ b ≠ 0 ∨ n ≠ 0 then .error .reservedBits else .ok .poll
    | 0x5 =>
      if b ≠ 0 ∨ n ≠ 0 then .error .reservedBits
      else if a > 4 then .error .operandRange
      else .ok (.chkff (bufOfId a))
    | 0x6 =>
      if b ≠ 0 ∨ n ≠ 0 then .error .reservedBits
      else if a > 4 then .error .operandRange
      else .ok (.fill (bufOfId a))
    | 0x7 =>
      if n ≠ 0 then .error .reservedBits
      else if a > 4 ∨ b > 4 then .error .operandRange
      else .ok (.cmp (bufOfId a) (bufOfId b))
    | 0x8 => if a ≠ 0 ∨ b ≠ 0 ∨ n ≠ 0 then .error .reservedBits else .ok .run
    | _ => .error .reservedOpcode

/-! ## The frame (30_encoding R115 to R119, 41_descriptors R184) -/

/-- Four address bytes, most significant first (30_encoding R125). -/
def addrOfBytes (b3 b2 b1 b0 : Byte) : Word := b3 ++ b2 ++ b1 ++ b0

/-- The frames whose address phase has 32 bits, after the instruction byte `op` and the address `a`. -/
def decodeAddressed (op : Byte) (a : Word) (rest : List Byte) : Except Reject Instr :=
  if op = 0xDC then
    if rest = [] then .ok (.flashSectorErase a) else .error .frameLength
  else if op = 0x34 then
    if rest.length = pageSize then .ok (.flashQuadPageProgram a rest) else .error .frameLength
  else if op = 0xEC then
    match rest with
    | [] => .ok (.flashQuadIoRead a none)
    | [m] => .ok (.flashQuadIoRead a (some m))
    | _ => .error .frameLength
  else .error .unknownFlashOpcode

/-- What the device reads from the bytes of a frame. Both ends know the frame's length from its
instruction byte (30_encoding R117); the dummy cycles and the read data are no bytes of the core's. -/
def decodeFrame : List Byte → Except Reject Instr
  | [] => .error .frameLength
  | op :: rest =>
    if op = 0x05 then
      if rest = [] then .ok .flashReadStatus else .error .frameLength
    else if op = 0x06 then
      if rest = [] then .ok .flashWriteEnable else .error .frameLength
    else if op = 0xDC ∨ op = 0x34 ∨ op = 0xEC then
      match rest with
      | b3 :: b2 :: b1 :: b0 :: more => decodeAddressed op (addrOfBytes b3 b2 b1 b0) more
      | _ => .error .frameLength
    else .error .unknownFlashOpcode

/-- The decoder. -/
def decode : Encoded → Except Reject Instr
  | .command w => decodeCommand w
  | .frame bytes => decodeFrame bytes

/-! ## The encoder -/

/-- The id of a buffer (30_encoding R103). -/
def bufId : BufId → Nat
  | .P => 0
  | .C => 1
  | .E => 2
  | .R => 3
  | .D => 4

/-- A command word from its fields, `Z` being 0 (30_encoding R100). -/
def commandWord (op a b n : Nat) : Word :=
  BitVec.ofNat 32 op ||| (BitVec.ofNat 32 a <<< 4) ||| (BitVec.ofNat 32 b <<< 8)
    ||| (BitVec.ofNat 32 n <<< 12)

/-- The bytes of a 32-bit address, most significant first (30_encoding R125). -/
def addrBytes32 (a : Word) : List Byte :=
  [a.extractLsb' 24 8, a.extractLsb' 16 8, a.extractLsb' 8 8, a.extractLsb' 0 8]

/-- The words of an instruction: the assembler table of 30_encoding R130 for the commands, the frames
of 41_descriptors R185 to R189 for the flash instructions. -/
def encode : Instr → Encoded
  | .enc src dst n => .command (commandWord 0x1 (bufId src) (bufId dst) n)
  | .dec src dst n => .command (commandWord 0x2 (bufId src) (bufId dst) n)
  | .xactReadStatus => .command (commandWord 0x3 0 0 0)
  | .xactWriteEnable => .command (commandWord 0x3 1 0 0)
  | .xactSectorErase => .command (commandWord 0x3 2 0 0)
  | .xactQuadPageProgram b => .command (commandWord 0x3 3 (bufId b) 0)
  | .xactQuadIoRead b => .command (commandWord 0x3 4 (bufId b) 0)
  | .poll => .command (commandWord 0x4 0 0 0)
  | .chkff b => .command (commandWord 0x5 (bufId b) 0 0)
  | .fill b => .command (commandWord 0x6 (bufId b) 0 0)
  | .cmp x y => .command (commandWord 0x7 (bufId x) (bufId y) 0)
  | .run => .command (commandWord 0x8 0 0 0)
  | .flashReadStatus => .frame [0x05]
  | .flashWriteEnable => .frame [0x06]
  | .flashSectorErase a => .frame (0xDC :: addrBytes32 a)
  | .flashQuadPageProgram a data => .frame (0x34 :: addrBytes32 a ++ data)
  | .flashQuadIoRead a mode => .frame (0xEC :: addrBytes32 a ++ mode.toList)

/-! ## Words numbered as spec/opcode_table.json numbers them -/

/-- How many zero bytes follow the instruction byte in the longest frame it begins: its operand words. -/
def frameTail (op : Byte) : Nat :=
  if op = 0xDC then 4
  else if op = 0x34 then 4 + pageSize
  else if op = 0xEC then 5
  else 0

/-- The bits `w` of a table row of `nbits` bits: a row of 8 bits is an instruction byte, its operand
bytes zero; a row of more bits is a command word. -/
def tableEncoded (nbits w : Nat) : Encoded :=
  if nbits ≤ 8 then
    let op := BitVec.ofNat 8 (w % 2 ^ nbits)
    .frame (op :: List.replicate (frameTail op) 0)
  else .command (BitVec.ofNat 32 (w % 2 ^ nbits))

/-- What the decoder reads from the bits of a row of the opcode table. -/
def decodeTableWord (nbits w : Nat) : Option Instr :=
  match decode (tableEncoded nbits w) with
  | .ok i => some i
  | .error _ => none

end Sys2Proof
end

