-- ==== Sys2Proof/Machine/State.lean ====
section
/-! DEFINITION. The state of the core, the host's pending actions and the flash device (10_state R20 to
R46), the reasons a step stops, and the launch state (10_state R43). Plain data throughout. -/

namespace Sys2Proof.Machine

/-! ## Errors, faults and refusals -/

/-- The core's own errors (60_exceptions R300). Each is a fatal halt, a next state, not a fault. -/
inductive CoreError where
  /-- Code 1. -/
  | busTransactionError
  /-- Code 2. -/
  | deviceBusyTimeout
  /-- Code 3. -/
  | eraseVerifyMismatch
  /-- Code 4. -/
  | programReadbackMismatch
  /-- Code 5. -/
  | cipherEngineError
  deriving DecidableEq, Repr

/-- The model faults (60_exceptions R310, R311): situations the spec gives no meaning. Each is safe:
the machine stops, so nothing is claimed of what the hardware does next. -/
inductive Fault where
  /-- A command reads a buffer byte never written, or left undefined by a failed command (20_memory
  R62). Raised by ENC, DEC, XACT QuadPageProgram, CHKFF and CMP. Safe. -/
  | unwrittenRead
  /-- A SectorErase address is not a multiple of `SECTOR_SIZE` (20_memory R66). Raised by XACT
  SectorErase and by the frame `DC`. Safe. -/
  | misalignedErase
  /-- A QuadPageProgram address is not a multiple of 64 (20_memory R66). Raised by XACT
  QuadPageProgram and by the frame `34`. Safe. -/
  | pageCrossing
  /-- A flash access beyond `DEVICE_SIZE` (42_transport R223 to R225). Raised by the three addressed
  transactions. Safe. -/
  | addressOutOfRange
  /-- A transaction other than Read-Status while the device is busy (20_memory R79). Raised by every
  transaction but Read-Status. Safe. -/
  | deviceBusyViolation
  /-- An unbounded POLL has issued 2^32 - 1 polls without Ready (43_busy_poll R240). Raised by a poll
  iteration. Safe. -/
  | pollCounterOverflow
  deriving DecidableEq, Repr

/-- The refusals (30_encoding R112, 60_exceptions R312). Each is safe: nothing is claimed of what a
word or a frame without a meaning does. -/
inductive Refusal where
  /-- An instruction the model gives no meaning yet. Raised by `exec` only; no arm raises it. Safe. -/
  | notModelled (mnemonic : String)
  /-- `Refused(reason, w)`: a command word that 30_encoding R109 refuses. Raised by `step`. Safe. -/
  | refusedWord (reason : Reject) (w : Word)
  /-- A frame the device model defines no response to (30_encoding R119). Raised by `step`. Safe. -/
  | refusedFrame (reason : Reject) (bytes : List Byte)
  deriving DecidableEq, Repr

/-- The outcome of a step or of a meaning (Host/Core.lean), for a state type `σ`. -/
abbrev Result (σ : Type) := Host.Outcome σ Fault Refusal

/-! ## Components -/

/-- What the core is in the middle of while `STAT.PHASE` is Running (10_state R26): the command that
spans several model steps (43_busy_poll R240, 44_orchestrator R272). -/
inductive Job where
  /-- A POLL the host issued. -/
  | poll
  /-- A RUN, between two commands of its program. -/
  | run
  /-- A POLL of the program of a RUN. -/
  | runPoll
  deriving DecidableEq, Repr

/-- `STAT.PHASE` (10_state R26). -/
inductive Phase where
  | idle
  | running (job : Job)
  | halted
  deriving DecidableEq, Repr

/-- A 64-byte buffer: a cell holds a byte, or `none`, the spec's *unwritten* (10_state R34). -/
abbrev Buffer := Vector (Option Byte) 64

/-- The five buffers (10_state R34). -/
structure Buffers where
  p : Buffer
  c : Buffer
  e : Buffer
  r : Buffer
  d : Buffer
  deriving DecidableEq, Repr

/-- Four bytes: a column of the AES state array, rows 0 to 3 (40_cipher R142), or a round-key word,
byte 0 (bits [31:24]) first (40_cipher R148). -/
structure Col where
  r0 : Byte
  r1 : Byte
  r2 : Byte
  r3 : Byte
  deriving DecidableEq, Repr

/-- The AES state array `s[r][c]`, column by column (40_cipher R142). -/
structure AesState where
  c0 : Col
  c1 : Col
  c2 : Col
  c3 : Col
  deriving DecidableEq, Repr

/-- The key-schedule state `KS` (10_state R35). -/
inductive KeySchedule where
  | uninit
  /-- `Ready(w)` with the round-key words `w[0..43]` (40_cipher R148). -/
  | ready (w : List Col)
  deriving DecidableEq, Repr

/-- A phase present in a transaction (42_transport R205). -/
inductive BusPhase where
  | instr (opcode : Byte) (width : BusWidth) (rate : DataRate)
  | addr (bytes : List Byte) (width : BusWidth) (rate : DataRate)
  | mode (value : Byte) (width : BusWidth) (rate : DataRate)
  | dummy (count : Nat) (width : BusWidth)
  | data (dir : Direction) (len : Nat) (width : BusWidth) (rate : DataRate)
  deriving DecidableEq, Repr

/-- A phase of a record, with its clock count (42_transport R206, R212). -/
structure PhaseRecord where
  phase : BusPhase
  clocks : Nat
  deriving DecidableEq, Repr

/-- The observation of one bus transaction (42_transport R206). -/
structure TxnRecord where
  kind : Kind
  opcode : Byte
  addr : List Byte
  phases : List PhaseRecord
  /-- The bytes written. -/
  out : List Byte
  /-- The bytes read, or none: `ok` is false or the kind reads nothing. -/
  input : Option (List Byte)
  ok : Bool
  deriving DecidableEq, Repr

/-- Which buffer dump an event reports (60_exceptions R330). -/
inductive DumpTag where
  | encrypted
  | decrypted
  deriving DecidableEq, Repr

/-- The events of the host-log sink (60_exceptions R330). -/
inductive LogEvent where
  | dump (tag : DumpTag) (bytes : List Byte)
  | pass
  | fail (code : CoreError)
  deriving DecidableEq, Repr

/-- Sparse bytes: strictly rising addresses, no entry equal to what an unlisted address reads as
(`Memory.wf` in Machine/Ops.lean). -/
abbrev Memory := List Host.Cell

/-- The flash device (10_state R39). An address that `mem` does not list reads `Config.memByte epoch`. -/
structure Device where
  /-- `MEM`. -/
  mem : Memory
  /-- The model's own: how many times the contents have been drawn afresh (20_memory R80). -/
  epoch : Nat
  /-- `WEL`. -/
  wel : Bool
  /-- `BUSY`. -/
  busy : Bool
  deriving DecidableEq, Repr

/-- A move of the host (10_state R46). -/
inductive HostAction where
  /-- Write `ADDR` (`SETADDR`, 30_encoding R130). -/
  | writeAddr (v : Word)
  /-- Write `CMD`. -/
  | writeCmd (w : Word)
  deriving DecidableEq, Repr

/-- The draws of one kind (00_scope R12). `given` is what the environment has already settled, the
next draw first; the draws after those are free values. `taken` counts the draws already made. -/
structure Draws (α : Type) where
  given : List α
  taken : Nat
  deriving DecidableEq, Repr

/-! ## The state -/

structure State where
  /-- The configuration (10_state R21). Written by no step. -/
  cfg : Config
  /-- `ADDR` (10_state R24). -/
  addr : Word
  /-- `STAT.PHASE` (10_state R26). -/
  phase : Phase
  /-- `STAT.ERR`, `none` being 0 (10_state R27). -/
  err : Option CoreError
  /-- `STAT.FAULT` (10_state R28). -/
  fault : Bool
  /-- `STAT.PASS` (10_state R29). -/
  pass : Bool
  /-- `STAT.POLLRDY`, true being Ready (10_state R30). -/
  pollRdy : Bool
  /-- `STAT.OPC` (10_state R31, R37). -/
  opc : Fin 14
  /-- `STAT.LAST_STATUS` (10_state R32). -/
  lastStatus : Byte
  /-- `POLLCNT` (10_state R33). -/
  pollCnt : Word
  /-- `RUN_T` (10_state R37). -/
  runT : Word
  /-- The buffers (10_state R34). -/
  bufs : Buffers
  /-- `KS` (10_state R35). -/
  ks : KeySchedule
  /-- The AES state array; it exists only within a cipher call (10_state R35, R43). -/
  aes : Option AesState
  /-- The bus trace, in issue order (10_state R38). -/
  trace : List TxnRecord
  /-- The host log, in emission order (10_state R38). -/
  log : List LogEvent
  /-- The flash device (10_state R39). -/
  dev : Device
  /-- The model's own: the host's moves not yet made, the next first (10_state R20, R23). -/
  inbox : List HostAction
  /-- The model's own: the bytes of a frame that stands on the bus without a command of the core
  behind it, for the device to answer (20_memory R71). -/
  frame : Option (List Byte)
  /-- Draws `ok` (42_transport R208). -/
  okDraws : Draws Bool
  /-- Draws `engineOk` (40_cipher R161). -/
  engineDraws : Draws Bool
  /-- Draws `hi` (20_memory R74). -/
  hiDraws : Draws (BitVec 7)
  /-- Draws `wip` (20_memory R74). -/
  wipDraws : Draws Bool
  deriving DecidableEq, Repr

/-- Every cell unwritten. -/
def Buffer.blank : Buffer := Vector.replicate 64 none

/-- The launch state of 10_state R43 under the parameters `c` (00_scope R10: a model takes them as
arguments). -/
def State.launch (c : Config) : State where
  cfg := c
  addr := 0
  phase := .idle
  err := none
  fault := false
  pass := false
  pollRdy := false
  opc := 0
  lastStatus := 0
  pollCnt := 0
  runT := 0
  bufs := ⟨Buffer.blank, Buffer.blank, Buffer.blank, Buffer.blank, Buffer.blank⟩
  ks := .uninit
  aes := none
  trace := []
  log := []
  dev := ⟨[], 0, false, false⟩
  inbox := []
  frame := none
  okDraws := ⟨[], 0⟩
  engineDraws := ⟨[], 0⟩
  hiDraws := ⟨[], 0⟩
  wipDraws := ⟨[], 0⟩

/-- The machine right after reset: the launch state (70_reset_and_hazards R340) under
`Config.reference` (log 7). -/
def State.reset : State := State.launch Config.reference

end Sys2Proof.Machine
end

