-- ==== Sys2Proof/Machine/Ops.lean ====
section
/-! DEFINITION. The named operations over draws, buffers, the device array and the status: every
meaning is written with these. The fatal halt, the one exception of the core, is `State.raise`. -/

namespace Sys2Proof.Machine

/-! ## Outcomes -/

/-- Go on with a value, or stop with the fault that was met instead. -/
def guardFault {α : Type} (c : Except Fault α) (k : α → Result State) : Result State :=
  match c with
  | .ok x => k x
  | .error f => .fault f

/-- Do `f` to the next state, if there is one. -/
def Result.mapNext (f : State → State) : Result State → Result State
  | .next s => .next (f s)
  | .fault r => .fault r
  | .refused r => .refused r

/-! ## Draws (00_scope R12) -/

/-- The `i`-th draw from now on; `free` gives the draws the environment has not settled. -/
def Draws.look {α : Type} (free : Nat → α) (d : Draws α) (i : Nat) : α :=
  match d.given[i]? with
  | some x => x
  | none => free (d.taken + i)

/-- The draws that remain after one is made. -/
def Draws.rest {α : Type} (d : Draws α) : Draws α :=
  ⟨d.given.tail, d.taken + 1⟩

/-- The `i`-th transport status from now on (42_transport R208). -/
def State.okAt (s : State) (i : Nat) : Bool := s.okDraws.look Config.freeOk i

/-- The `i`-th engine report from now on (40_cipher R161). -/
def State.engineAt (s : State) (i : Nat) : Bool := s.engineDraws.look Config.freeEngine i

/-- Bits 7:1 of the `i`-th status byte from now on (20_memory R74). -/
def State.hiAt (s : State) (i : Nat) : BitVec 7 := s.hiDraws.look Config.freeHi i

/-- The `i`-th completion draw of a busy device from now on (20_memory R74). -/
def State.wipAt (s : State) (i : Nat) : Bool := s.wipDraws.look Config.freeWip i

/-- One transport status has been drawn. -/
def State.dropOk (s : State) : State := { s with okDraws := s.okDraws.rest }

/-- One engine report has been drawn. -/
def State.dropEngine (s : State) : State := { s with engineDraws := s.engineDraws.rest }

/-- The upper bits of one status byte have been drawn. -/
def State.dropHi (s : State) : State := { s with hiDraws := s.hiDraws.rest }

/-- One completion has been drawn. -/
def State.dropWip (s : State) : State := { s with wipDraws := s.wipDraws.rest }

/-! ## Buffers (20_memory R61) -/

/-- The buffer of an id. -/
def Buffers.get (bs : Buffers) : BufId → Buffer
  | .P => bs.p
  | .C => bs.c
  | .E => bs.e
  | .R => bs.r
  | .D => bs.d

/-- Replace the buffer of an id. -/
def Buffers.set (bs : Buffers) (b : BufId) (v : Buffer) : Buffers :=
  match b with
  | .P => { bs with p := v }
  | .C => { bs with c := v }
  | .E => { bs with e := v }
  | .R => { bs with r := v }
  | .D => { bs with d := v }

/-- The bytes of cells, if every one of them is written. -/
def readCells : List (Option Byte) → Option (List Byte)
  | [] => some []
  | none :: _ => none
  | some v :: rest =>
    match readCells rest with
    | some vs => some (v :: vs)
    | none => none

/-- The `n` bytes of a buffer from `off`, if every one of them is written. -/
def Buffer.bytes (v : Buffer) (off n : Nat) : Option (List Byte) :=
  readCells ((v.toList.drop off).take n)

/-- A buffer with the bytes `v` at `off`. -/
def Buffer.put (buf : Buffer) (off : Nat) (v : List Byte) : Buffer :=
  Vector.ofFn fun i => if off ≤ i.val ∧ i.val < off + v.length then v[i.val - off]? else buf[i]

/-- A buffer with `n` cells from `off` unwritten. -/
def Buffer.undef (buf : Buffer) (off n : Nat) : Buffer :=
  Vector.ofFn fun i => if off ≤ i.val ∧ i.val < off + n then none else buf[i]

/-- The buffer of an id in a state. -/
def State.buf (s : State) (b : BufId) : Buffer := s.bufs.get b

/-- Replace a buffer of a state. -/
def State.setBuf (s : State) (b : BufId) (v : Buffer) : State := { s with bufs := s.bufs.set b v }

/-- `BufRead(b, off, n)`; the fault UnwrittenRead if a cell is unwritten (20_memory R61, R62). -/
def bufRead (b : BufId) (off n : Nat) (s : State) : Except Fault (List Byte) :=
  match (s.buf b).bytes off n with
  | some v => .ok v
  | none => .error .unwrittenRead

/-- `BufWrite(b, off, n, v)` with `n` the length of `v` (20_memory R61). -/
def bufWrite (b : BufId) (off : Nat) (v : List Byte) (s : State) : State :=
  s.setBuf b ((s.buf b).put off v)

/-- `BufUndef(b, off, n)` (20_memory R61). -/
def bufUndef (b : BufId) (off n : Nat) (s : State) : State :=
  s.setBuf b ((s.buf b).undef off n)

/-! ## The device array (20_memory R70) -/

/-- The byte at an address; `base` is what an unlisted address reads as. -/
def Memory.read (base : Nat → Byte) (a : Nat) : Memory → Byte
  | [] => base a
  | (k, v) :: rest => if k = a then v else Memory.read base a rest

/-- Write one byte, keeping the canonical form. -/
def Memory.write (base : Nat → Byte) (a : Nat) (v : Byte) : Memory → Memory
  | [] => if v = base a then [] else [(a, v)]
  | (k, w) :: rest =>
    if k < a then (k, w) :: Memory.write base a v rest
    else if k = a then (if v = base a then rest else (a, v) :: rest)
    else if v = base a then (k, w) :: rest else (a, v) :: (k, w) :: rest

/-- The canonical form from the address `lo` on. -/
def Memory.wfFrom (base : Nat → Byte) : Nat → Memory → Bool
  | _, [] => true
  | lo, (k, v) :: rest => decide (lo ≤ k) && decide (v ≠ base k) && Memory.wfFrom base (k + 1) rest

/-- The canonical form: strictly rising addresses, no entry equal to what an unlisted address reads. -/
def Memory.wf (base : Nat → Byte) (m : Memory) : Bool := Memory.wfFrom base 0 m

/-- `MemWrite(a, n, v)` with `n` the length of `v`. -/
def Memory.writeBytes (base : Nat → Byte) (a : Nat) : List Byte → Memory → Memory
  | [], m => m
  | v :: vs, m => Memory.write base a v (Memory.writeBytes base (a + 1) vs m)

/-- `MemRead(a, n)`. -/
def Memory.readBytes (base : Nat → Byte) (a : Nat) : Nat → Memory → List Byte
  | 0, _ => []
  | n + 1, m => Memory.read base a m :: Memory.readBytes base (a + 1) n m

/-- What an address reads as that the device's memory does not list. -/
def Device.base (d : Device) : Nat → Byte := Config.memByte d.epoch

/-- `MEM[a]`. -/
def Device.readByte (d : Device) (a : Nat) : Byte := d.mem.read d.base a

/-- `MemRead(a, n)`. -/
def Device.memRead (d : Device) (a n : Nat) : List Byte := d.mem.readBytes d.base a n

/-- `MemWrite(a, n, v)`. -/
def Device.memWrite (d : Device) (a : Nat) (v : List Byte) : Device :=
  { d with mem := d.mem.writeBytes d.base a v }

/-- `MEM[a]` of a state: the model's read of one byte of the flash array. -/
def State.flashByte (s : State) (a : Nat) : Byte := s.dev.readByte a

/-! ## Observation and halt -/

/-- `log(event)` (60_exceptions R330). -/
def State.emit (s : State) (e : LogEvent) : State := { s with log := s.log ++ [e] }

/-- Append a record to the bus trace (42_transport R206). -/
def State.record (s : State) (r : TxnRecord) : State := { s with trace := s.trace ++ [r] }

/-- `raise Error(code)`, the fatal halt (60_exceptions R302): nothing is saved and nothing returns
from it (R304, R321). -/
def State.raise (s : State) (e : CoreError) : State :=
  { s with err := some e, fault := true, phase := .halted, log := s.log ++ [.fail e] }

end Sys2Proof.Machine
end

