-- ==== Sys2Proof/Machine/Operands.lean ====
section
/-! DEFINITION. The operand forms: the address of a transaction, the payload lengths and directions of
the kinds, the bytes of an address phase, and the blocks of a buffer's bytes. -/

namespace Sys2Proof

/-- `LEN(kind)`: the data length of a transaction (30_encoding R128). -/
def Kind.len : Kind → Nat
  | .readStatus => 1
  | .writeEnable => 0
  | .sectorErase => 0
  | .quadPageProgram => pageSize
  | .quadIoRead => pageSize

/-- `DIR(kind)`: the direction of the data phase (42_transport R202); the kinds without one do not ask. -/
def Kind.dir : Kind → Direction
  | .readStatus => .read
  | .writeEnable => .write
  | .sectorErase => .write
  | .quadPageProgram => .write
  | .quadIoRead => .read

/-- The kinds that return a read payload (42_transport R201). -/
def Kind.reads : Kind → Bool
  | .readStatus => true
  | .writeEnable => false
  | .sectorErase => false
  | .quadPageProgram => false
  | .quadIoRead => true

/-- Address size in bits (30_encoding R122). -/
def AddrSize.bits : AddrSize → Nat
  | .none => 0
  | .bits8 => 8
  | .bits24 => 24
  | .bits32 => 32

end Sys2Proof

namespace Sys2Proof.Machine

/-- Whether a RUN is in progress. -/
def Phase.inRun : Phase → Bool
  | .running .run => true
  | .running .runPoll => true
  | .running .poll => false
  | .idle => false
  | .halted => false

/-- The address of an XACT: `RUN_T` inside RUN, else `ADDR` (42_transport section 4, 30_encoding R125). -/
def State.txnAddr (s : State) : Word := if s.phase.inRun then s.runT else s.addr

/-- `AddrBytes(a, size)`, most significant byte first (42_transport R205, 30_encoding R125). -/
def addrBytes (a : Word) : AddrSize → List Byte
  | .none => []
  | .bits8 => [a.extractLsb' 0 8]
  | .bits24 => [a.extractLsb' 16 8, a.extractLsb' 8 8, a.extractLsb' 0 8]
  | .bits32 => addrBytes32 a

/-- The byte count of a block count, no padding (30_encoding R127). -/
def blockBytes (n : Nat) : Nat := blockSize * n

/-- The plaintext pattern `byte[i] = i` of 64 bytes (44_orchestrator R261). -/
def fillPattern : List Byte := (List.range pageSize).map (BitVec.ofNat 8)

end Sys2Proof.Machine
end

