-- ==== Sys2Proof/Machine/Flags.lean ====
section
/-! DEFINITION. The status fields and flags: the `STAT` word (10_state R25), the error codes
(60_exceptions R300) and the write-in-progress bit of a status byte. -/

namespace Sys2Proof.Machine

/-- The code of an error (60_exceptions R300). -/
def CoreError.code : CoreError → Nat
  | .busTransactionError => 1
  | .deviceBusyTimeout => 2
  | .eraseVerifyMismatch => 3
  | .programReadbackMismatch => 4
  | .cipherEngineError => 5

/-- The value of `STAT.PHASE` (10_state R25). -/
def Phase.code : Phase → Nat
  | .idle => 0
  | .running _ => 1
  | .halted => 2

/-- The value of `STAT.ERR` (10_state R27). -/
def errCode : Option CoreError → Nat
  | none => 0
  | some e => e.code

/-- The `STAT` word the host reads: `PHASE` [1:0], `ERR` [7:4], `FAULT` [8], `PASS` [9], `POLLRDY`
[10], `OPC` [15:12], `LAST_STATUS` [23:16], reserved bits 0 (10_state R25). -/
def State.statWord (s : State) : Word :=
  BitVec.ofNat 32 s.phase.code
    ||| (BitVec.ofNat 32 (errCode s.err) <<< 4)
    ||| ((BitVec.ofBool s.fault).setWidth 32 <<< 8)
    ||| ((BitVec.ofBool s.pass).setWidth 32 <<< 9)
    ||| ((BitVec.ofBool s.pollRdy).setWidth 32 <<< 10)
    ||| (BitVec.ofNat 32 s.opc.val <<< 12)
    ||| (s.lastStatus.setWidth 32 <<< 16)

/-- `WIP_BIT`: bit 0 of a status byte, 1 while a write is in progress (00_scope R9). -/
def statusBusy (b : Byte) : Bool := b.getLsbD 0

/-- A status byte from its bits 7:1 and its bit 0 (20_memory R74). -/
def statusByte (hi : BitVec 7) (wip : Bool) : Byte := hi ++ BitVec.ofBool wip

end Sys2Proof.Machine
end

