-- ==== Sys2Proof/Machine/Aes.lean ====
section
/-! DEFINITION. AES-128 (40_cipher R141 to R153): field arithmetic, the two tables, the round
transformations, the key expansion, the one-block cipher and its inverse. -/

namespace Sys2Proof.Machine

/-! ## Field arithmetic (40_cipher R143) -/

/-- `xtime(a)`: multiplication by x in GF(2^8), reduced by 0x11B. -/
def xtime (a : Byte) : Byte := (a <<< 1) ^^^ (if a.getLsbD 7 then 0x1B else 0x00)

/-- The xor of `xtime^i(a)` over the low `n` bits `i` of `b` that are 1. -/
def gmulBits : Nat → Byte → Byte → Byte
  | 0, _, _ => 0
  | n + 1, a, b => (if b.getLsbD 0 then a else 0) ^^^ gmulBits n (xtime a) (b >>> 1)

/-- `a • b` (40_cipher R143). -/
def gmul (a b : Byte) : Byte := gmulBits 8 a b

/-! ## The S-box and its inverse (40_cipher R144, R145) -/

/-- Row 0 of `sbox`. -/
def sboxRow0 : List Byte :=
  [0x63, 0x7c, 0x77, 0x7b, 0xf2, 0x6b, 0x6f, 0xc5, 0x30, 0x01, 0x67, 0x2b, 0xfe, 0xd7, 0xab, 0x76]

/-- Row 1 of `sbox`. -/
def sboxRow1 : List Byte :=
  [0xca, 0x82, 0xc9, 0x7d, 0xfa, 0x59, 0x47, 0xf0, 0xad, 0xd4, 0xa2, 0xaf, 0x9c, 0xa4, 0x72, 0xc0]

/-- Row 2 of `sbox`. -/
def sboxRow2 : List Byte :=
  [0xb7, 0xfd, 0x93, 0x26, 0x36, 0x3f, 0xf7, 0xcc, 0x34, 0xa5, 0xe5, 0xf1, 0x71, 0xd8, 0x31, 0x15]

/-- Row 3 of `sbox`. -/
def sboxRow3 : List Byte :=
  [0x04, 0xc7, 0x23, 0xc3, 0x18, 0x96, 0x05, 0x9a, 0x07, 0x12, 0x80, 0xe2, 0xeb, 0x27, 0xb2, 0x75]

/-- Row 4 of `sbox`. -/
def sboxRow4 : List Byte :=
  [0x09, 0x83, 0x2c, 0x1a, 0x1b, 0x6e, 0x5a, 0xa0, 0x52, 0x3b, 0xd6, 0xb3, 0x29, 0xe3, 0x2f, 0x84]

/-- Row 5 of `sbox`. -/
def sboxRow5 : List Byte :=
  [0x53, 0xd1, 0x00, 0xed, 0x20, 0xfc, 0xb1, 0x5b, 0x6a, 0xcb, 0xbe, 0x39, 0x4a, 0x4c, 0x58, 0xcf]

/-- Row 6 of `sbox`. -/
def sboxRow6 : List Byte :=
  [0xd0, 0xef, 0xaa, 0xfb, 0x43, 0x4d, 0x33, 0x85, 0x45, 0xf9, 0x02, 0x7f, 0x50, 0x3c, 0x9f, 0xa8]

/-- Row 7 of `sbox`. -/
def sboxRow7 : List Byte :=
  [0x51, 0xa3, 0x40, 0x8f, 0x92, 0x9d, 0x38, 0xf5, 0xbc, 0xb6, 0xda, 0x21, 0x10, 0xff, 0xf3, 0xd2]

/-- Row 8 of `sbox`. -/
def sboxRow8 : List Byte :=
  [0xcd, 0x0c, 0x13, 0xec, 0x5f, 0x97, 0x44, 0x17, 0xc4, 0xa7, 0x7e, 0x3d, 0x64, 0x5d, 0x19, 0x73]

/-- Row 9 of `sbox`. -/
def sboxRow9 : List Byte :=
  [0x60, 0x81, 0x4f, 0xdc, 0x22, 0x2a, 0x90, 0x88, 0x46, 0xee, 0xb8, 0x14, 0xde, 0x5e, 0x0b, 0xdb]

/-- Row a of `sbox`. -/
def sboxRowA : List Byte :=
  [0xe0, 0x32, 0x3a, 0x0a, 0x49, 0x06, 0x24, 0x5c, 0xc2, 0xd3, 0xac, 0x62, 0x91, 0x95, 0xe4, 0x79]

/-- Row b of `sbox`. -/
def sboxRowB : List Byte :=
  [0xe7, 0xc8, 0x37, 0x6d, 0x8d, 0xd5, 0x4e, 0xa9, 0x6c, 0x56, 0xf4, 0xea, 0x65, 0x7a, 0xae, 0x08]

/-- Row c of `sbox`. -/
def sboxRowC : List Byte :=
  [0xba, 0x78, 0x25, 0x2e, 0x1c, 0xa6, 0xb4, 0xc6, 0xe8, 0xdd, 0x74, 0x1f, 0x4b, 0xbd, 0x8b, 0x8a]

/-- Row d of `sbox`. -/
def sboxRowD : List Byte :=
  [0x70, 0x3e, 0xb5, 0x66, 0x48, 0x03, 0xf6, 0x0e, 0x61, 0x35, 0x57, 0xb9, 0x86, 0xc1, 0x1d, 0x9e]

/-- Row e of `sbox`. -/
def sboxRowE : List Byte :=
  [0xe1, 0xf8, 0x98, 0x11, 0x69, 0xd9, 0x8e, 0x94, 0x9b, 0x1e, 0x87, 0xe9, 0xce, 0x55, 0x28, 0xdf]

/-- Row f of `sbox`. -/
def sboxRowF : List Byte :=
  [0x8c, 0xa1, 0x89, 0x0d, 0xbf, 0xe6, 0x42, 0x68, 0x41, 0x99, 0x2d, 0x0f, 0xb0, 0x54, 0xbb, 0x16]

/-- `SBOX`: row = high hex digit, column = low hex digit (40_cipher R144). -/
def sboxRows : List (List Byte) :=
  [sboxRow0, sboxRow1, sboxRow2, sboxRow3, sboxRow4, sboxRow5, sboxRow6, sboxRow7]
    ++ [sboxRow8, sboxRow9, sboxRowA, sboxRowB, sboxRowC, sboxRowD, sboxRowE, sboxRowF]

/-- Row 0 of `invSbox`. -/
def invSboxRow0 : List Byte :=
  [0x52, 0x09, 0x6a, 0xd5, 0x30, 0x36, 0xa5, 0x38, 0xbf, 0x40, 0xa3, 0x9e, 0x81, 0xf3, 0xd7, 0xfb]

/-- Row 1 of `invSbox`. -/
def invSboxRow1 : List Byte :=
  [0x7c, 0xe3, 0x39, 0x82, 0x9b, 0x2f, 0xff, 0x87, 0x34, 0x8e, 0x43, 0x44, 0xc4, 0xde, 0xe9, 0xcb]

/-- Row 2 of `invSbox`. -/
def invSboxRow2 : List Byte :=
  [0x54, 0x7b, 0x94, 0x32, 0xa6, 0xc2, 0x23, 0x3d, 0xee, 0x4c, 0x95, 0x0b, 0x42, 0xfa, 0xc3, 0x4e]

/-- Row 3 of `invSbox`. -/
def invSboxRow3 : List Byte :=
  [0x08, 0x2e, 0xa1, 0x66, 0x28, 0xd9, 0x24, 0xb2, 0x76, 0x5b, 0xa2, 0x49, 0x6d, 0x8b, 0xd1, 0x25]

/-- Row 4 of `invSbox`. -/
def invSboxRow4 : List Byte :=
  [0x72, 0xf8, 0xf6, 0x64, 0x86, 0x68, 0x98, 0x16, 0xd4, 0xa4, 0x5c, 0xcc, 0x5d, 0x65, 0xb6, 0x92]

/-- Row 5 of `invSbox`. -/
def invSboxRow5 : List Byte :=
  [0x6c, 0x70, 0x48, 0x50, 0xfd, 0xed, 0xb9, 0xda, 0x5e, 0x15, 0x46, 0x57, 0xa7, 0x8d, 0x9d, 0x84]

/-- Row 6 of `invSbox`. -/
def invSboxRow6 : List Byte :=
  [0x90, 0xd8, 0xab, 0x00, 0x8c, 0xbc, 0xd3, 0x0a, 0xf7, 0xe4, 0x58, 0x05, 0xb8, 0xb3, 0x45, 0x06]

/-- Row 7 of `invSbox`. -/
def invSboxRow7 : List Byte :=
  [0xd0, 0x2c, 0x1e, 0x8f, 0xca, 0x3f, 0x0f, 0x02, 0xc1, 0xaf, 0xbd, 0x03, 0x01, 0x13, 0x8a, 0x6b]

/-- Row 8 of `invSbox`. -/
def invSboxRow8 : List Byte :=
  [0x3a, 0x91, 0x11, 0x41, 0x4f, 0x67, 0xdc, 0xea, 0x97, 0xf2, 0xcf, 0xce, 0xf0, 0xb4, 0xe6, 0x73]

/-- Row 9 of `invSbox`. -/
def invSboxRow9 : List Byte :=
  [0x96, 0xac, 0x74, 0x22, 0xe7, 0xad, 0x35, 0x85, 0xe2, 0xf9, 0x37, 0xe8, 0x1c, 0x75, 0xdf, 0x6e]

/-- Row a of `invSbox`. -/
def invSboxRowA : List Byte :=
  [0x47, 0xf1, 0x1a, 0x71, 0x1d, 0x29, 0xc5, 0x89, 0x6f, 0xb7, 0x62, 0x0e, 0xaa, 0x18, 0xbe, 0x1b]

/-- Row b of `invSbox`. -/
def invSboxRowB : List Byte :=
  [0xfc, 0x56, 0x3e, 0x4b, 0xc6, 0xd2, 0x79, 0x20, 0x9a, 0xdb, 0xc0, 0xfe, 0x78, 0xcd, 0x5a, 0xf4]

/-- Row c of `invSbox`. -/
def invSboxRowC : List Byte :=
  [0x1f, 0xdd, 0xa8, 0x33, 0x88, 0x07, 0xc7, 0x31, 0xb1, 0x12, 0x10, 0x59, 0x27, 0x80, 0xec, 0x5f]

/-- Row d of `invSbox`. -/
def invSboxRowD : List Byte :=
  [0x60, 0x51, 0x7f, 0xa9, 0x19, 0xb5, 0x4a, 0x0d, 0x2d, 0xe5, 0x7a, 0x9f, 0x93, 0xc9, 0x9c, 0xef]

/-- Row e of `invSbox`. -/
def invSboxRowE : List Byte :=
  [0xa0, 0xe0, 0x3b, 0x4d, 0xae, 0x2a, 0xf5, 0xb0, 0xc8, 0xeb, 0xbb, 0x3c, 0x83, 0x53, 0x99, 0x61]

/-- Row f of `invSbox`. -/
def invSboxRowF : List Byte :=
  [0x17, 0x2b, 0x04, 0x7e, 0xba, 0x77, 0xd6, 0x26, 0xe1, 0x69, 0x14, 0x63, 0x55, 0x21, 0x0c, 0x7d]

/-- `INV_SBOX`: row = high hex digit, column = low hex digit (40_cipher R145). -/
def invSboxRows : List (List Byte) :=
  [invSboxRow0, invSboxRow1, invSboxRow2, invSboxRow3, invSboxRow4, invSboxRow5, invSboxRow6, invSboxRow7]
    ++ [invSboxRow8, invSboxRow9, invSboxRowA, invSboxRowB, invSboxRowC, invSboxRowD, invSboxRowE, invSboxRowF]

/-- The entry of a table of sixteen rows of sixteen. -/
def tableEntry (rows : List (List Byte)) (x : Byte) : Byte :=
  (rows.getD (x.toNat / 16) []).getD (x.toNat % 16) 0

/-- `SBOX[x]` (40_cipher R144). -/
def sbox (x : Byte) : Byte := tableEntry sboxRows x

/-- `INV_SBOX[x]` (40_cipher R145). -/
def invSbox (x : Byte) : Byte := tableEntry invSboxRows x

/-! ## Columns and the state array (40_cipher R142) -/

/-- Each byte of a column through `f`. -/
def Col.map (f : Byte → Byte) (c : Col) : Col := ⟨f c.r0, f c.r1, f c.r2, f c.r3⟩

/-- The bytewise exclusive-or of two columns. -/
def Col.xor (a b : Col) : Col := ⟨a.r0 ^^^ b.r0, a.r1 ^^^ b.r1, a.r2 ^^^ b.r2, a.r3 ^^^ b.r3⟩

/-- Each column through `f`. -/
def AesState.mapCols (f : Col → Col) (s : AesState) : AesState := ⟨f s.c0, f s.c1, f s.c2, f s.c3⟩

/-- The column of four bytes from `i` on. -/
def colAt (bytes : List Byte) (i : Nat) : Col :=
  ⟨bytes.getD i 0, bytes.getD (i + 1) 0, bytes.getD (i + 2) 0, bytes.getD (i + 3) 0⟩

/-- `s[r][c] <- in[r + 4c]` (40_cipher R142). -/
def loadBlock (bytes : List Byte) : AesState :=
  ⟨colAt bytes 0, colAt bytes 4, colAt bytes 8, colAt bytes 12⟩

/-- The bytes of a column. -/
def Col.bytes (c : Col) : List Byte := [c.r0, c.r1, c.r2, c.r3]

/-- `out[r + 4c] <- s[r][c]` (40_cipher R142). -/
def storeBlock (s : AesState) : List Byte := s.c0.bytes ++ s.c1.bytes ++ s.c2.bytes ++ s.c3.bytes

/-! ## Round transformations -/

/-- SubBytes (40_cipher R144). -/
def subBytes (s : AesState) : AesState := s.mapCols (Col.map sbox)

/-- InvSubBytes (40_cipher R145). -/
def invSubBytes (s : AesState) : AesState := s.mapCols (Col.map invSbox)

/-- ShiftRows: row r is rotated left by r (40_cipher R146). -/
def shiftRows (s : AesState) : AesState where
  c0 := ⟨s.c0.r0, s.c1.r1, s.c2.r2, s.c3.r3⟩
  c1 := ⟨s.c1.r0, s.c2.r1, s.c3.r2, s.c0.r3⟩
  c2 := ⟨s.c2.r0, s.c3.r1, s.c0.r2, s.c1.r3⟩
  c3 := ⟨s.c3.r0, s.c0.r1, s.c1.r2, s.c2.r3⟩

/-- InvShiftRows: row r is rotated right by r (40_cipher R150). -/
def invShiftRows (s : AesState) : AesState where
  c0 := ⟨s.c0.r0, s.c3.r1, s.c2.r2, s.c1.r3⟩
  c1 := ⟨s.c1.r0, s.c0.r1, s.c3.r2, s.c2.r3⟩
  c2 := ⟨s.c2.r0, s.c1.r1, s.c0.r2, s.c3.r3⟩
  c3 := ⟨s.c3.r0, s.c2.r1, s.c1.r2, s.c0.r3⟩

/-- MixColumns on one column (40_cipher R147). -/
def mixCol (a : Col) : Col where
  r0 := gmul 0x02 a.r0 ^^^ gmul 0x03 a.r1 ^^^ a.r2 ^^^ a.r3
  r1 := a.r0 ^^^ gmul 0x02 a.r1 ^^^ gmul 0x03 a.r2 ^^^ a.r3
  r2 := a.r0 ^^^ a.r1 ^^^ gmul 0x02 a.r2 ^^^ gmul 0x03 a.r3
  r3 := gmul 0x03 a.r0 ^^^ a.r1 ^^^ a.r2 ^^^ gmul 0x02 a.r3

/-- MixColumns (40_cipher R147). -/
def mixColumns (s : AesState) : AesState := s.mapCols mixCol

/-- InvMixColumns on one column (40_cipher R151). -/
def invMixCol (a : Col) : Col where
  r0 := gmul 0x0E a.r0 ^^^ gmul 0x0B a.r1 ^^^ gmul 0x0D a.r2 ^^^ gmul 0x09 a.r3
  r1 := gmul 0x09 a.r0 ^^^ gmul 0x0E a.r1 ^^^ gmul 0x0B a.r2 ^^^ gmul 0x0D a.r3
  r2 := gmul 0x0D a.r0 ^^^ gmul 0x09 a.r1 ^^^ gmul 0x0E a.r2 ^^^ gmul 0x0B a.r3
  r3 := gmul 0x0B a.r0 ^^^ gmul 0x0D a.r1 ^^^ gmul 0x09 a.r2 ^^^ gmul 0x0E a.r3

/-- InvMixColumns (40_cipher R151). -/
def invMixColumns (s : AesState) : AesState := s.mapCols invMixCol

/-! ## Key expansion (40_cipher R148) -/

/-- A key word of zeros; no index of the schedule reads it. -/
def Col.zero : Col := ⟨0, 0, 0, 0⟩

/-- `RotWord`. -/
def rotWord (w : Col) : Col := ⟨w.r1, w.r2, w.r3, w.r0⟩

/-- `SubWord`. -/
def subWord (w : Col) : Col := w.map sbox

/-- `RCON[1..10]`. -/
def rcon : Nat → Byte
  | 1 => 0x01
  | 2 => 0x02
  | 3 => 0x04
  | 4 => 0x08
  | 5 => 0x10
  | 6 => 0x20
  | 7 => 0x40
  | 8 => 0x80
  | 9 => 0x1B
  | 10 => 0x36
  | _ => 0x00

/-- `w[i]` from the words before it, the latest first. -/
def nextWord (i : Nat) (before : List Col) : Col :=
  let temp := before.getD 0 Col.zero
  let temp := if i % 4 = 0 then (subWord (rotWord temp)).xor ⟨rcon (i / 4), 0, 0, 0⟩ else temp
  (before.getD 3 Col.zero).xor temp

/-- `n` more words, the latest first. -/
def expandWords : Nat → List Col → List Col
  | 0, ws => ws
  | n + 1, ws => expandWords n (nextWord ws.length ws :: ws)

/-- `KeyExpansion(AES_KEY)`: the words `w[0..43]`. -/
def keyExpansion (key : Vector Byte 16) : List Col :=
  let k := key.toList
  (expandWords 40 [colAt k 12, colAt k 8, colAt k 4, colAt k 0]).reverse

/-- Round key r, the words `w[4r] .. w[4r+3]` (40_cipher R148). -/
def roundKey (w : List Col) (r : Nat) : AesState :=
  ⟨w.getD (4 * r) Col.zero, w.getD (4 * r + 1) Col.zero, w.getD (4 * r + 2) Col.zero,
    w.getD (4 * r + 3) Col.zero⟩

/-- AddRoundKey(r) (40_cipher R149). -/
def addRoundKey (w : List Col) (r : Nat) (s : AesState) : AesState :=
  let k := roundKey w r
  ⟨s.c0.xor k.c0, s.c1.xor k.c1, s.c2.xor k.c2, s.c3.xor k.c3⟩

/-! ## The cipher and its inverse (40_cipher R152, R153) -/

/-- The rounds 1 to n of `Cipher`, in order. -/
def cipherRounds (w : List Col) : Nat → AesState → AesState
  | 0, s => s
  | n + 1, s => addRoundKey w (n + 1) (mixColumns (shiftRows (subBytes (cipherRounds w n s))))

/-- `Cipher` on the state array (40_cipher R152). -/
def cipherState (w : List Col) (s : AesState) : AesState :=
  addRoundKey w 10 (shiftRows (subBytes (cipherRounds w 9 (addRoundKey w 0 s))))

/-- The rounds n down to 1 of `InvCipher`, in order. -/
def invCipherRounds (w : List Col) : Nat → AesState → AesState
  | 0, s => s
  | n + 1, s =>
    invCipherRounds w n (invMixColumns (addRoundKey w (n + 1) (invSubBytes (invShiftRows s))))

/-- `InvCipher` on the state array (40_cipher R153). -/
def invCipherState (w : List Col) (s : AesState) : AesState :=
  addRoundKey w 0 (invSubBytes (invShiftRows (invCipherRounds w 9 (addRoundKey w 10 s))))

/-- `Cipher(in, w) -> out` (40_cipher R152). -/
def cipher (w : List Col) (input : List Byte) : List Byte :=
  storeBlock (cipherState w (loadBlock input))

/-- `InvCipher(in, w) -> out` (40_cipher R153). -/
def invCipher (w : List Col) (input : List Byte) : List Byte :=
  storeBlock (invCipherState w (loadBlock input))

/-- The first `n` blocks of `bytes`, each through `f`, in ascending order (40_cipher R166). -/
def ecbBlocks (f : List Byte → List Byte) : Nat → List Byte → List Byte
  | 0, _ => []
  | n + 1, bytes => f (bytes.take blockSize) ++ ecbBlocks f n (bytes.drop blockSize)

end Sys2Proof.Machine
end

