-- ==== Sys2Proof/Machine/Cipher.lean ====
section
/-! DEFINITION. The Cipher Engine: one call with its key-schedule bracket (40_cipher R160), and the
commands ENC and DEC (R162, R163). -/

namespace Sys2Proof.Machine

/-- Initialize: `KS <- Ready(KeyExpansion(AES_KEY))` (40_cipher R160). -/
def State.engineInit (s : State) : State := { s with ks := .ready (keyExpansion s.cfg.aesKey) }

/-- Finalize: `KS <- Uninit`; the state array is gone with the call (40_cipher R160, 10_state R35). -/
def State.engineFinal (s : State) : State := { s with ks := .uninit, aes := none }

/-- One block through the engine: `f` works on the state array under the schedule `KS` holds. No call
processes a block with `KS` uninitialised (40_cipher R160). -/
def engineBlock (f : List Col → AesState → AesState) (input : List Byte) (s : State) :
    List Byte × State :=
  match s.ks with
  | .uninit => ([], s)
  | .ready w => (storeBlock (f w (loadBlock input)), { s with aes := some (f w (loadBlock input)) })

/-- `n` blocks in ascending order under one schedule (40_cipher R162, R163). -/
def engineBlocks (f : List Col → AesState → AesState) : Nat → List Byte → State → List Byte × State
  | 0, _, s => ([], s)
  | n + 1, input, s =>
    let first := engineBlock f (input.take blockSize) s
    let others := engineBlocks f n (input.drop blockSize) first.2
    (first.1 ++ others.1, others.2)

/-- The whole bracket of a call: initialize, the blocks, finalize. -/
def engineCall (f : List Col → AesState → AesState) (n : Nat) (input : List Byte) (s : State) :
    List Byte × State :=
  let done := engineBlocks f n input s.engineInit
  (done.1, done.2.engineFinal)

/-- The end of a call: the draw `engineOk` (40_cipher R161), then the failed or the good ending
(R162, R163). -/
def engineEnd (tag : DumpTag) (dst : BufId) (n : Nat) (out : List Byte) (s : State) : State :=
  if s.engineAt 0 then (bufWrite dst 0 out s.dropEngine).emit (.dump tag out)
  else (bufUndef dst 0 (blockBytes n) s.dropEngine).raise .cipherEngineError

/-- `encryptBlocks` and `decryptBlocks` alike (40_cipher R162, R163); no block, no effect (R164). -/
def engineCommand (f : List Col → AesState → AesState) (tag : DumpTag) (src dst : BufId) (n : Nat)
    (s : State) : Result State :=
  if n = 0 then .next s
  else guardFault (bufRead src 0 (blockBytes n) s) fun input =>
    let done := engineCall f n input s
    .next (engineEnd tag dst n done.1 done.2)

/-- `ENC src, dst, n` (40_cipher R162). -/
def execEnc (src dst : BufId) (n : Nat) (s : State) : Result State :=
  engineCommand cipherState .encrypted src dst n s

/-- `DEC src, dst, n` (40_cipher R163). -/
def execDec (src dst : BufId) (n : Nat) (s : State) : Result State :=
  engineCommand invCipherState .decrypted src dst n s

end Sys2Proof.Machine
end

