-- ==== Sys2Proof/Machine/Descriptors.lean ====
section
/-! DEFINITION. The Command Descriptor Table (41_descriptors R184 to R189), its startup validation
(R182, R190), the phases of a transaction (42_transport R205) and their clock counts (R211, R212). -/

namespace Sys2Proof.Machine

/-- The address phase of the kinds without an address. -/
def noAddress : AddrPhase := ⟨.none, .single, .sdr, true⟩

/-- A disabled mode phase. -/
def noMode : ModePhase := ⟨0x00, .single, .sdr, true⟩

/-- QuadIoRead with the mode byte `m`, or without a mode phase (41_descriptors R189). -/
def quadIoReadWith (m : Option Byte) : CommandDescriptor where
  instruction := ⟨0xEC, .single, .sdr, false⟩
  address := ⟨.bits32, .quad, .sdr, false⟩
  modeBits := ⟨m.getD 0xFF, .quad, .sdr, m.isNone⟩
  dummyCycles := ⟨4, .quad⟩
  data := ⟨.quad, .sdr⟩

/-- The mode byte the core sends: 0xFF when `MODE_PHASE_PRESENT` (41_descriptors R189). -/
def coreMode (c : Config) : Option Byte := if c.modePhase then some 0xFF else none

/-- The table `DT` (41_descriptors R184). -/
def descriptor (c : Config) : Kind → CommandDescriptor
  | .readStatus =>
    ⟨⟨0x05, .single, .sdr, false⟩, noAddress, noMode, ⟨0, .single⟩, ⟨.single, .sdr⟩⟩
  | .writeEnable =>
    ⟨⟨0x06, .single, .sdr, false⟩, noAddress, noMode, ⟨0, .single⟩, ⟨.single, .sdr⟩⟩
  | .sectorErase =>
    ⟨⟨0xDC, .single, .sdr, false⟩, ⟨.bits32, .single, .sdr, false⟩, noMode, ⟨0, .single⟩, ⟨.single, .sdr⟩⟩
  | .quadPageProgram =>
    ⟨⟨0x34, .single, .sdr, false⟩, ⟨.bits32, .single, .sdr, false⟩, noMode, ⟨0, .single⟩, ⟨.quad, .sdr⟩⟩
  | .quadIoRead => quadIoReadWith (coreMode c)

/-- `lines` of a width (42_transport R211). -/
def lines : BusWidth → Nat
  | .single => 1
  | .dual => 2
  | .quad => 4

/-- Transfers per clock of a rate (42_transport R211). -/
def transfers : DataRate → Nat
  | .sdr => 1
  | .ddr => 2

/-- Bits per clock of a phase (42_transport R211). -/
def bitsPerClock (w : BusWidth) (r : DataRate) : Nat := lines w * transfers r

/-- The clock count of a phase (42_transport R212). -/
def BusPhase.clocks : BusPhase → Nat
  | .instr _ w r => 8 / bitsPerClock w r
  | .addr bytes w r => 8 * bytes.length / bitsPerClock w r
  | .mode _ w r => 8 / bitsPerClock w r
  | .dummy count _ => count
  | .data _ len w r => 8 * len / bitsPerClock w r

/-- `Phases(d, a, kind)` (42_transport R205): a disabled phase contributes no element. -/
def phasesOf (d : CommandDescriptor) (a : Word) (k : Kind) : List BusPhase :=
  (if d.instruction.disabled then [] else [.instr d.instruction.opcode d.instruction.width d.instruction.rate])
    ++ (if d.address.disabled then [] else [.addr (addrBytes a d.address.size) d.address.width d.address.rate])
    ++ (if d.modeBits.disabled then [] else [.mode d.modeBits.value d.modeBits.width d.modeBits.rate])
    ++ (if d.dummyCycles.count > 0 then [.dummy d.dummyCycles.count d.dummyCycles.width] else [])
    ++ (if k.len > 0 then [.data k.dir k.len d.data.width d.data.rate] else [])

/-- The phases of a transaction with each phase's clock count (42_transport R206). -/
def phaseRecords (d : CommandDescriptor) (a : Word) (k : Kind) : List PhaseRecord :=
  (phasesOf d a k).map fun p => ⟨p, p.clocks⟩

/-- The clock count of a transaction: the sum over its phases (42_transport R212). -/
def TxnRecord.clocks (r : TxnRecord) : Nat := (r.phases.map PhaseRecord.clocks).sum

/-- The bus clocks of a trace (70_reset_and_hazards R360). -/
def traceClocks (t : List TxnRecord) : Nat := (t.map TxnRecord.clocks).sum

/-- The bytes of a frame that the core drives, in transmission order (30_encoding R115, R116). -/
def frameBytes (d : CommandDescriptor) (a : Word) (out : List Byte) : List Byte :=
  (if d.instruction.disabled then [] else [d.instruction.opcode])
    ++ (if d.address.disabled then [] else addrBytes a d.address.size)
    ++ (if d.modeBits.disabled then [] else [d.modeBits.value])
    ++ out

/-- The total bit count of a frame, dummy clocks apart (30_encoding R117). -/
def frameBits (d : CommandDescriptor) (k : Kind) : Nat :=
  8 + d.address.size.bits + (if d.modeBits.disabled then 0 else 8) + 8 * k.len

/-- A phase fills whole clock cycles (41_descriptors R182 d). -/
def wholeClocks (bits : Nat) (w : BusWidth) (r : DataRate) : Bool := bits % bitsPerClock w r == 0

/-- Validity of a descriptor for a kind (41_descriptors R182). Item (c), that widths and rates are
of the enumerations, holds by their types. -/
def validDescriptor (d : CommandDescriptor) (k : Kind) : Bool :=
  (d.address.disabled == (d.address.size == .none))
    && !d.instruction.disabled
    && wholeClocks 8 d.instruction.width d.instruction.rate
    && (d.address.disabled || wholeClocks d.address.size.bits d.address.width d.address.rate)
    && (d.modeBits.disabled || wholeClocks 8 d.modeBits.width d.modeBits.rate)
    && (k.len == 0 || wholeClocks (8 * k.len) d.data.width d.data.rate)

/-- The five kinds, in table order. -/
def allKinds : List Kind := [.readStatus, .writeEnable, .sectorErase, .quadPageProgram, .quadIoRead]

/-- The startup validation of the table (41_descriptors R190). -/
def validTable (c : Config) : Bool := allKinds.all fun k => validDescriptor (descriptor c k) k

end Sys2Proof.Machine
end

