-- ==== Sys2Proof/Machine/Device.lean ====
section
/-! DEFINITION. The flash device's response to a transaction (20_memory R70 to R80). -/

namespace Sys2Proof.Machine

/-- Write-Enable (20_memory R73). -/
def Device.writeEnable (d : Device) : Device := { d with wel := true }

/-- Sector-Erase at `a` (20_memory R76): accepted only with the latch set. -/
def Device.sectorErase (d : Device) (sectorSize a : Nat) : Device :=
  if d.wel then { d.memWrite a (List.replicate sectorSize erased) with wel := false, busy := true }
  else d

/-- Quad Page-Program at `a` (20_memory R77): each byte becomes the bitwise and of the old byte and
the data; accepted only with the latch set. -/
def Device.pageProgram (d : Device) (a : Nat) (v : List Byte) : Device :=
  if d.wel then
    { d.memWrite a (List.zipWith (· &&& ·) (d.memRead a v.length) v) with wel := false, busy := true }
  else d

/-- Read-Status (20_memory R74): the status byte and the state after it. A busy device draws whether
it has finished. -/
def readStatusResponse (s : State) : Byte × State :=
  if s.dev.busy then
    (statusByte (s.hiAt 0) (s.wipAt 0),
      { s.dropHi.dropWip with dev := { s.dev with busy := s.wipAt 0 } })
  else (statusByte (s.hiAt 0) false, s.dropHi)

/-- `DeviceRespond(kind, a, out)` (20_memory R71): the read payload and the state after it. -/
def deviceRespond (k : Kind) (a : Word) (out : List Byte) (s : State) : List Byte × State :=
  match k with
  | .readStatus => ([(readStatusResponse s).1], (readStatusResponse s).2)
  | .writeEnable => ([], { s with dev := s.dev.writeEnable })
  | .sectorErase => ([], { s with dev := s.dev.sectorErase s.cfg.sectorSize a.toNat })
  | .quadPageProgram => ([], { s with dev := s.dev.pageProgram a.toNat out })
  | .quadIoRead => (s.dev.memRead a.toNat pageSize, s)

/-- `HavocDevice()` (20_memory R80): `MEM`, `WEL` and `BUSY` are each a fresh draw. -/
def havocDevice (s : State) : State :=
  { s with dev := ⟨[], s.dev.epoch + 1, Config.freeWel (s.dev.epoch + 1), Config.freeBusy (s.dev.epoch + 1)⟩ }

end Sys2Proof.Machine
end

