-- ==== Sys2Proof/Machine/Transport.lean ====
section
/-! DEFINITION. The Flash Transport: the transaction primitive `Txn` (42_transport R200) and the five
XACT commands (R220 to R225). -/

namespace Sys2Proof.Machine

/-- What a transaction gives its caller: the transport status, the read payload, the state after it. -/
structure TxnDone where
  ok : Bool
  input : List Byte
  state : State
  deriving DecidableEq, Repr

/-- The record of a transaction (42_transport R206). -/
def txnRecord (d : CommandDescriptor) (k : Kind) (a : Word) (out : List Byte) (ok : Bool)
    (input : List Byte) : TxnRecord where
  kind := k
  opcode := d.instruction.opcode
  addr := addrBytes a d.address.size
  phases := phaseRecords d a k
  out := out
  input := if ok && k.reads then some input else none
  ok := ok

/-- A transaction that goes out on the bus (42_transport R200, after the busy check): the draw `ok`,
the device's response or its loss, and the record. -/
def txnRun (d : CommandDescriptor) (k : Kind) (a : Word) (out : List Byte) (s : State) : TxnDone :=
  let ok := s.okAt 0
  let answer := deviceRespond k a out s.dropOk
  let after := if ok then answer.2 else havocDevice s.dropOk
  ⟨ok, answer.1, after.record (txnRecord d k a out ok answer.1)⟩

/-- `Txn(kind, a, out)` (42_transport R200): a busy device answers only Read-Status (20_memory R79). -/
def txn (d : CommandDescriptor) (k : Kind) (a : Word) (out : List Byte) (s : State) :
    Except Fault TxnDone :=
  if s.dev.busy ∧ k ≠ .readStatus then .error .deviceBusyViolation
  else .ok (txnRun d k a out s)

/-- Read-Status as a transaction (42_transport R220, 43_busy_poll R240). -/
def statusTxn (s : State) : Except Fault TxnDone :=
  txn (descriptor s.cfg .readStatus) .readStatus 0 [] s

/-- Write-Enable as a transaction (42_transport R221). -/
def enableTxn (s : State) : Except Fault TxnDone :=
  txn (descriptor s.cfg .writeEnable) .writeEnable 0 [] s

/-- Sector-Erase with its address checks (42_transport R222, R223). -/
def eraseTxn (a : Word) (s : State) : Except Fault TxnDone :=
  if a.toNat % s.cfg.sectorSize ≠ 0 then .error .misalignedErase
  else if a.toNat + s.cfg.sectorSize > s.cfg.deviceSize then .error .addressOutOfRange
  else txn (descriptor s.cfg .sectorErase) .sectorErase a [] s

/-- Quad Page-Program with its address checks, then the read of its payload (42_transport R222, R224). -/
def programTxn (a : Word) (payload : Except Fault (List Byte)) (s : State) : Except Fault TxnDone :=
  if a.toNat % pageSize ≠ 0 then .error .pageCrossing
  else if a.toNat + pageSize > s.cfg.deviceSize then .error .addressOutOfRange
  else match payload with
    | .error f => .error f
    | .ok out => txn (descriptor s.cfg .quadPageProgram) .quadPageProgram a out s

/-- Quad-IO-Read with its address check (42_transport R222, R225) and the mode phase `m`. -/
def readTxn (m : Option Byte) (a : Word) (s : State) : Except Fault TxnDone :=
  if a.toNat + pageSize > s.cfg.deviceSize then .error .addressOutOfRange
  else txn (quadIoReadWith m) .quadIoRead a [] s

/-- The result handling of an XACT: `BusTransactionError` after `onFail` when the status is an error,
no retry (42_transport R209), else `onOk` with the read payload. -/
def finishTxn (onOk : List Byte → State → State) (onFail : State → State) (t : TxnDone) :
    Result State :=
  .next (if t.ok then onOk t.input t.state else (onFail t.state).raise .busTransactionError)

/-- `XACT ReadStatus` (42_transport R220). -/
def execXactReadStatus (s : State) : Result State :=
  guardFault (statusTxn s)
    (finishTxn (fun input t => { t with lastStatus := input.headD 0 }) (fun t => t))

/-- `XACT WriteEnable` (42_transport R221). -/
def execXactWriteEnable (s : State) : Result State :=
  guardFault (enableTxn s) (finishTxn (fun _ t => t) (fun t => t))

/-- `XACT SectorErase` (42_transport R223). -/
def execXactSectorErase (s : State) : Result State :=
  guardFault (eraseTxn s.txnAddr s) (finishTxn (fun _ t => t) (fun t => t))

/-- `XACT QuadPageProgram, b` (42_transport R224). -/
def execXactQuadPageProgram (b : BufId) (s : State) : Result State :=
  guardFault (programTxn s.txnAddr (bufRead b 0 pageSize s) s) (finishTxn (fun _ t => t) (fun t => t))

/-- `XACT QuadIoRead, b` (42_transport R225): a failed read leaves the buffer unwritten. -/
def execXactQuadIoRead (b : BufId) (s : State) : Result State :=
  guardFault (readTxn (coreMode s.cfg) s.txnAddr s)
    (finishTxn (fun input t => bufWrite b 0 input t) (fun t => bufUndef b 0 pageSize t))

end Sys2Proof.Machine
end

