-- ==== Sys2Proof/Machine/Flash.lean ====
section
/-! DEFINITION. The five flash instructions as frames on the bus (41_descriptors R185 to R189): the
transaction of 42_transport R200 without a command of the core behind it, so its result stays in the
bus trace and no command handles its status (log 12). The checks of an addressed frame are those the
device model assumes of it (20_memory R76 to R78). -/

namespace Sys2Proof.Machine

/-- The frame's transaction is the whole effect. -/
def frameDone (t : TxnDone) : Result State := .next t.state

/-- The frame `05` (41_descriptors R185, 20_memory R74). -/
def execFlashReadStatus (s : State) : Result State := guardFault (statusTxn s) frameDone

/-- The frame `06` (41_descriptors R186, 20_memory R73). -/
def execFlashWriteEnable (s : State) : Result State := guardFault (enableTxn s) frameDone

/-- The frame `DC` (41_descriptors R187, 20_memory R76). -/
def execFlashSectorErase (a : Word) (s : State) : Result State := guardFault (eraseTxn a s) frameDone

/-- The frame `34` (41_descriptors R188, 20_memory R77). -/
def execFlashQuadPageProgram (a : Word) (data : List Byte) (s : State) : Result State :=
  guardFault (programTxn a (.ok data) s) frameDone

/-- The frame `EC` (41_descriptors R189, 20_memory R78). The mode byte does not change the bytes read
(log 13). -/
def execFlashQuadIoRead (a : Word) (mode : Option Byte) (s : State) : Result State :=
  guardFault (readTxn mode a s) frameDone

end Sys2Proof.Machine
end

