-- ==== Sys2Proof/Machine/Poll.lean ====
section
/-! DEFINITION. The Busy-Poll State Machine (43_busy_poll R240 to R250). One model step is one
iteration of the loop of R240; `Phase.running` says that iterations remain. -/

namespace Sys2Proof.Machine

/-- The phase while a POLL has iterations left: inside RUN the RUN goes on after it. -/
def pollingPhase : Phase → Phase
  | .running .run => .running .runPoll
  | .running .runPoll => .running .runPoll
  | .running .poll => .running .poll
  | .idle => .running .poll
  | .halted => .running .poll

/-- The phase after a POLL has reached Ready: control returns to the caller (43_busy_poll R242). -/
def polledPhase : Phase → Phase
  | .running .runPoll => .running .run
  | .running .run => .running .run
  | .running .poll => .idle
  | .idle => .idle
  | .halted => .halted

/-- The start of a POLL: state Polling, no poll counted (43_busy_poll R240, R244). -/
def State.pollBegin (s : State) : State :=
  { s with pollRdy := false, pollCnt := 0, phase := pollingPhase s.phase }

/-- State Ready (43_busy_poll R242). -/
def State.pollReady (s : State) : State := { s with pollRdy := true, phase := polledPhase s.phase }

/-- What follows a Read-Status of a POLL (43_busy_poll R240, R241): the poll is counted, then its
status decides. -/
def pollResult (t : TxnDone) : State :=
  let s := { t.state with pollCnt := t.state.pollCnt + 1 }
  if t.ok then
    let s' := { s with lastStatus := t.input.headD 0 }
    if statusBusy (t.input.headD 0) then s' else s'.pollReady
  else s.raise .busTransactionError

/-- One iteration of the loop (43_busy_poll R240, R245): the bound, then the counter, then the poll. -/
def pollStep (s : State) : Result State :=
  if s.cfg.maxPolls = some s.pollCnt.toNat then .next (s.raise .deviceBusyTimeout)
  else if s.cfg.maxPolls = none ∧ s.pollCnt.toNat = 2 ^ 32 - 1 then .fault .pollCounterOverflow
  else guardFault (statusTxn s) fun t => .next (pollResult t)

/-- `POLL` (43_busy_poll R240): the start and the first iteration. -/
def execPoll (s : State) : Result State := pollStep s.pollBegin

end Sys2Proof.Machine
end

