-- ==== Sys2Proof/Machine/Orchestrator.lean ====
section
/-! DEFINITION. The Program/Verify Orchestrator (44_orchestrator R260 to R279): its own three commands,
its fixed program and its sequencing. -/

namespace Sys2Proof.Machine

/-- `CHKFF b` (44_orchestrator R260). -/
def execChkff (b : BufId) (s : State) : Result State :=
  guardFault (bufRead b 0 pageSize s) fun v =>
    .next (if v.all (· == erased) then s else s.raise .eraseVerifyMismatch)

/-- `FILL b` (44_orchestrator R261). -/
def execFill (b : BufId) (s : State) : Result State := .next (bufWrite b 0 fillPattern s)

/-- `CMP x, y` (44_orchestrator R262): all of `x`, then all of `y`, then the comparison. -/
def execCmp (x y : BufId) (s : State) : Result State :=
  guardFault (bufRead x 0 pageSize s) fun u =>
    guardFault (bufRead y 0 pageSize s) fun v =>
      .next (if u = v then s else s.raise .programReadbackMismatch)

/-- The start of a RUN (44_orchestrator R272): the target, `PASS` and `OPC`; its thirteen commands are
the steps that follow. -/
def execRun (s : State) : Result State :=
  .next { s with runT := s.addr, pass := false, opc := 0, phase := .running .run }

/-- `PROGRAM[0..12]`; 13 is the completed state (44_orchestrator R270). -/
def program (opc : Fin 14) : Option Instr :=
  match opc.val with
  | 0 => some .xactWriteEnable
  | 1 => some .xactSectorErase
  | 2 => some .poll
  | 3 => some (.xactQuadIoRead .E)
  | 4 => some (.chkff .E)
  | 5 => some (.fill .P)
  | 6 => some (.enc .P .C 4)
  | 7 => some .xactWriteEnable
  | 8 => some (.xactQuadPageProgram .C)
  | 9 => some .poll
  | 10 => some (.xactQuadIoRead .R)
  | 11 => some (.dec .R .D 4)
  | 12 => some (.cmp .D .P)
  | _ => none

/-- `OPC + 1`, stopping at 13 (10_state R41). -/
def opcNext (opc : Fin 14) : Fin 14 := ⟨min (opc.val + 1) 13, by omega⟩

/-- The pass of a RUN (44_orchestrator R275). -/
def State.runPass (s : State) : State :=
  { s with pass := true, phase := .idle, log := s.log ++ [.pass] }

/-- `OPC <- OPC + 1` after a command that completed, and the pass when that reaches 13
(44_orchestrator R271, R275). -/
def State.runAdvance (s : State) : State :=
  let s' := { s with opc := opcNext s.opc }
  if s'.opc = 13 then s'.runPass else s'

/-- What a RUN does after a step of its program: nothing after a halt or while a POLL goes on. -/
def afterRunStep (s : State) : State :=
  match s.phase with
  | .running .run => s.runAdvance
  | .running .runPoll => s
  | .running .poll => s
  | .idle => s
  | .halted => s

end Sys2Proof.Machine
end

