-- ==== Sys2Proof/Machine/Dispatch.lean ====
section
/-! DEFINITION. One arm for each constructor of `Instr`, each a call of its meaning. -/

namespace Sys2Proof.Machine

def exec (i : Instr) (s : State) : Host.Outcome State Fault Refusal :=
  match i with
  | .enc src dst n => Sys2Proof.Machine.execEnc src dst n s
  | .dec src dst n => Sys2Proof.Machine.execDec src dst n s
  | .xactReadStatus => Sys2Proof.Machine.execXactReadStatus s
  | .xactWriteEnable => Sys2Proof.Machine.execXactWriteEnable s
  | .xactSectorErase => Sys2Proof.Machine.execXactSectorErase s
  | .xactQuadPageProgram b => Sys2Proof.Machine.execXactQuadPageProgram b s
  | .xactQuadIoRead b => Sys2Proof.Machine.execXactQuadIoRead b s
  | .poll => Sys2Proof.Machine.execPoll s
  | .chkff b => Sys2Proof.Machine.execChkff b s
  | .fill b => Sys2Proof.Machine.execFill b s
  | .cmp x y => Sys2Proof.Machine.execCmp x y s
  | .run => Sys2Proof.Machine.execRun s
  | .flashReadStatus => Sys2Proof.Machine.execFlashReadStatus s
  | .flashWriteEnable => Sys2Proof.Machine.execFlashWriteEnable s
  | .flashSectorErase a => Sys2Proof.Machine.execFlashSectorErase a s
  | .flashQuadPageProgram a data => Sys2Proof.Machine.execFlashQuadPageProgram a data s
  | .flashQuadIoRead a mode => Sys2Proof.Machine.execFlashQuadIoRead a mode s

end Sys2Proof.Machine
end

