-- ==== Sys2Proof/Machine/Fetch.lean ====
section
/-! DEFINITION. What the next step is to do: answer a frame on the bus, go on with a POLL or a RUN, or
take the host's next move (10_state R20, R23, R46); and how an instruction is placed there. -/

namespace Sys2Proof.Machine

/-- What a step finds to do. -/
inductive Fetched where
  /-- Execute an instruction. -/
  | execute (i : Instr) (s : State)
  /-- Execute a command of the program of a RUN (44_orchestrator R272). -/
  | executeInRun (i : Instr) (s : State)
  /-- Nothing to execute: the step's answer. -/
  | answer (r : Result State)

/-- The host's next move in Idle: `ADDR` is written (10_state R24), a word written to `CMD` is decoded
(R23) and refused by 30_encoding R112 if it has no meaning. Without a move the core waits. -/
def fetchHost (s : State) : Fetched :=
  match s.inbox with
  | [] => .answer (.next s)
  | .writeAddr v :: rest => .answer (.next { s with addr := v, inbox := rest })
  | .writeCmd w :: rest =>
    match decodeCommand w with
    | .ok i => .execute i { s with inbox := rest }
    | .error why => .answer (.refused (.refusedWord why w))

/-- The next command of a RUN (44_orchestrator R271, R272). -/
def fetchProgram (s : State) : Fetched :=
  match program s.opc with
  | some i => .executeInRun i s
  | none => .answer (.next s.runPass)

/-- What the core does next by its phase. A halted core takes no step (60_exceptions R302, R304). -/
def fetchCore (s : State) : Fetched :=
  match s.phase with
  | .idle => fetchHost s
  | .running .poll => .answer (pollStep s)
  | .running .runPoll => .answer ((pollStep s).mapNext afterRunStep)
  | .running .run => fetchProgram s
  | .halted => .answer (.next s)

/-- The device answers a frame that stands on the bus (20_memory R71) before anything else. -/
def fetch (s : State) : Fetched :=
  match s.frame with
  | some bytes =>
    match decodeFrame bytes with
    | .ok i => .execute i { s with frame := none }
    | .error why => .answer (.refused (.refusedFrame why bytes))
  | none => fetchCore s

/-- The state with an encoded instruction placed for the very next step: a command word as the host's
next move with the core Idle, a frame on the bus (log 2, log 12). -/
def State.place (s : State) : Encoded → State
  | .command w => { s with phase := .idle, frame := none, inbox := .writeCmd w :: s.inbox }
  | .frame bytes => { s with frame := some bytes }

end Sys2Proof.Machine
end

