-- ==== Sys2Proof/Machine/Step.lean ====
section
/-! DEFINITION. One step of the machine (00_scope R8): one move of the host with the whole command it
starts, one command of a RUN, one poll, or one frame. -/

namespace Sys2Proof.Machine

def step (s : State) : Host.Outcome State Fault Refusal :=
  match fetch s with
  | .execute i t => exec i t
  | .executeInRun i t => Result.mapNext afterRunStep (exec i t)
  | .answer r => r

/-- `s` with the instruction whose table bits are `w` placed where `step` takes its next one. -/
def State.withFetchWord (s : State) (nbits w : Nat) : State := s.place (tableEncoded nbits w)

end Sys2Proof.Machine
end

