-- ==== Sys2Proof/Machine/Asm.lean ====
section
/-! DEFINITION. The textual forms of the commands and the pseudo-instructions (30_encoding R130, R131),
as the moves of the host they stand for. -/

namespace Sys2Proof.Machine

/-- A buffer by its letter (30_encoding R130). -/
def bufText : BufId → String
  | .P => "P"
  | .C => "C"
  | .E => "E"
  | .R => "R"
  | .D => "D"

/-- The text of a command (30_encoding R130). A frame has no textual form. -/
def commandText : Instr → Option String
  | .enc src dst n => some ("ENC " ++ bufText src ++ ", " ++ bufText dst ++ ", " ++ toString n)
  | .dec src dst n => some ("DEC " ++ bufText src ++ ", " ++ bufText dst ++ ", " ++ toString n)
  | .xactReadStatus => some "XACT ReadStatus"
  | .xactWriteEnable => some "XACT WriteEnable"
  | .xactSectorErase => some "XACT SectorErase"
  | .xactQuadPageProgram b => some ("XACT QuadPageProgram, " ++ bufText b)
  | .xactQuadIoRead b => some ("XACT QuadIoRead, " ++ bufText b)
  | .poll => some "POLL"
  | .chkff b => some ("CHKFF " ++ bufText b)
  | .fill b => some ("FILL " ++ bufText b)
  | .cmp x y => some ("CMP " ++ bufText x ++ ", " ++ bufText y)
  | .run => some "RUN"
  | .flashReadStatus => none
  | .flashWriteEnable => none
  | .flashSectorErase _ => none
  | .flashQuadPageProgram _ _ => none
  | .flashQuadIoRead _ _ => none

/-- A line of a program: a command, `SETADDR`, or a pseudo-instruction (30_encoding R130, R131). -/
inductive AsmLine where
  | command (i : Instr)
  | setAddr (v : Word)
  | rdsr
  | wren
  | erase (a : Word)
  | prog (a : Word) (b : BufId)
  | read (a : Word) (b : BufId)
  | runAt (a : Word)
  | enc4 (src dst : BufId)
  | dec4 (src dst : BufId)
  deriving DecidableEq, Repr

/-- The host's move that gives a command; a frame is no move of the host. -/
def commandMove (i : Instr) : List HostAction :=
  match encode i with
  | .command w => [.writeCmd w]
  | .frame _ => []

/-- The host's moves of a line (30_encoding R131). -/
def AsmLine.moves : AsmLine → List HostAction
  | .command i => commandMove i
  | .setAddr v => [.writeAddr v]
  | .rdsr => commandMove .xactReadStatus
  | .wren => commandMove .xactWriteEnable
  | .erase a => .writeAddr a :: commandMove .xactSectorErase
  | .prog a b => .writeAddr a :: commandMove (.xactQuadPageProgram b)
  | .read a b => .writeAddr a :: commandMove (.xactQuadIoRead b)
  | .runAt a => .writeAddr a :: commandMove .run
  | .enc4 src dst => commandMove (.enc src dst 4)
  | .dec4 src dst => commandMove (.dec src dst 4)

end Sys2Proof.Machine
end

