-- ==== Sys2Proof/Machine/Wire.lean ====
section
/-! DEFINITION. The wire-level refinement of a transaction record (42_transport R214 to R218): what
stands on IO3 to IO0 in each bus clock of a transaction, and CS# and the clock around it and between
transactions. It is a view of the record and of the trace; no meaning depends on it. -/

namespace Sys2Proof.Machine

/-- Who drives the lines. -/
inductive Driver where
  | core
  | device
  | nobody
  deriving DecidableEq, Repr

/-- The levels of the four lines in one transfer; `none` where the phase puts nothing on a line. -/
structure LineGroup where
  driver : Driver
  io3 : Option Bool
  io2 : Option Bool
  io1 : Option Bool
  io0 : Option Bool
  deriving DecidableEq, Repr

/-- A bus clock: one transfer, or at DDR the one of the rising edge and the one of the falling edge. -/
abbrev WireClock := List LineGroup

/-- No line is driven. -/
def idleGroup : LineGroup := ⟨.nobody, none, none, none, none⟩

/-- One bit: on IO0 from the core, on IO1 from the device (42_transport R215). -/
def singleGroup (who : Driver) (bit : Bool) : LineGroup :=
  match who with
  | .device => ⟨.device, none, none, some bit, none⟩
  | .core => ⟨.core, none, none, none, some bit⟩
  | .nobody => idleGroup

/-- Two bits on (IO1, IO0) (42_transport R216). -/
def dualGroup (who : Driver) (b1 b0 : Bool) : LineGroup := ⟨who, none, none, some b1, some b0⟩

/-- Four bits on (IO3, IO2, IO1, IO0) (42_transport R217). -/
def quadGroup (who : Driver) (b3 b2 b1 b0 : Bool) : LineGroup := ⟨who, some b3, some b2, some b1, some b0⟩

/-- The transfers of a byte, its most significant bits first (42_transport R204, R215 to R217). -/
def byteGroups (who : Driver) (w : BusWidth) (b : Byte) : List LineGroup :=
  let bit := fun i => b.getLsbD i
  match w with
  | .single => [7, 6, 5, 4, 3, 2, 1, 0].map fun i => singleGroup who (bit i)
  | .dual => [7, 5, 3, 1].map fun i => dualGroup who (bit i) (bit (i - 1))
  | .quad => [7, 3].map fun i => quadGroup who (bit i) (bit (i - 1)) (bit (i - 2)) (bit (i - 3))

/-- Transfers two to a clock, the rising edge's first (42_transport R218). -/
def pairGroups : List LineGroup → List WireClock
  | [] => []
  | [g] => [[g]]
  | g :: h :: rest => [g, h] :: pairGroups rest

/-- The bus clocks of the transfers of a phase. -/
def clocksOf (r : DataRate) (gs : List LineGroup) : List WireClock :=
  match r with
  | .sdr => gs.map fun g => [g]
  | .ddr => pairGroups gs

/-- The bus clocks of bytes in index order (42_transport R204). -/
def bytesWire (who : Driver) (w : BusWidth) (r : DataRate) (bytes : List Byte) : List WireClock :=
  clocksOf r (bytes.flatMap (byteGroups who w))

/-- The bus clocks of a phase of a record. The read payload of a failed transaction is unspecified
(20_memory R80): its clocks pass with no level given. -/
def phaseWire (rec : TxnRecord) (p : BusPhase) : List WireClock :=
  match p with
  | .instr op w r => bytesWire .core w r [op]
  | .addr bytes w r => bytesWire .core w r bytes
  | .mode v w r => bytesWire .core w r [v]
  | .dummy count _ => List.replicate count [idleGroup]
  | .data .write _ w r => bytesWire .core w r rec.out
  | .data .read len w r =>
    match rec.input with
    | some input => bytesWire .device w r input
    | none => List.replicate (BusPhase.data .read len w r).clocks [idleGroup]

/-- The bus clocks between the assertion of CS# and its release (42_transport R214). -/
def TxnRecord.wire (rec : TxnRecord) : List WireClock :=
  rec.phases.flatMap fun p => phaseWire rec p.phase

/-! ## Chip select and the clock (42_transport R214) -/

/-- A moment of the bus: the level of CS#, which is active low, and the bus clock that passes; `none`
while the clock idles. How long a moment without a clock lasts is not said (log 17). -/
structure WireTick where
  csN : Bool
  clock : Option WireClock
  deriving DecidableEq, Repr

/-- CS# is asserted and the clock idles. -/
def selectTick : WireTick := ⟨false, none⟩

/-- A bus clock, under an asserted CS#. -/
def clockTick (c : WireClock) : WireTick := ⟨false, some c⟩

/-- CS# is released and the clock idles. -/
def releaseTick : WireTick := ⟨true, none⟩

/-- A transaction on the wire: CS# is asserted before the first clock and released after the last. -/
def TxnRecord.framed (rec : TxnRecord) : List WireTick :=
  selectTick :: (rec.wire.map clockTick ++ [releaseTick])

/-- The bus over a trace: before its first transaction, between two and after the last one CS# is
released and the clock idles. -/
def traceWire (t : List TxnRecord) : List WireTick := releaseTick :: t.flatMap TxnRecord.framed

/-- How often CS# goes from released to asserted; `csN` is its level before. -/
def assertions : (csN : Bool) → List WireTick → Nat
  | _, [] => 0
  | csN, tick :: rest => (if csN && !tick.csN then 1 else 0) + assertions tick.csN rest

end Sys2Proof.Machine
end

