-- ==== Sys2Proof/Safety.lean ====
section
/-! DEFINITION. The terms claims are made in: the invariant of the machine, and how a run ends
(70_reset_and_hazards R365). -/

namespace Sys2Proof.Machine

/-- The bound of a POLL is not overrun (43_busy_poll R243). -/
def PollsWithin (s : State) : Prop := ∀ m, s.cfg.maxPolls = some m → s.pollCnt.toNat ≤ m

/-- What every state of a run satisfies. -/
structure State.Inv (s : State) : Prop where
  /-- The device's memory is in its canonical form. -/
  mem_wf : s.dev.mem.wf s.dev.base = true
  /-- The device's memory lists only addresses of the device (20_memory R63). -/
  mem_in_device : ∀ cell ∈ s.dev.mem, cell.1 < s.cfg.deviceSize
  /-- An error code stands exactly in a halted core (10_state R27). -/
  err_halted : s.err ≠ none ↔ s.phase = .halted
  /-- The fault indicator is on exactly in a halted core (10_state R28). -/
  fault_halted : s.fault = true ↔ s.phase = .halted
  /-- A timeout needs a bound (60_exceptions R300). -/
  timeout_bounded : s.err = some .deviceBusyTimeout → s.cfg.maxPolls ≠ none
  /-- The engine holds nothing between calls (10_state R35). -/
  engine_idle : s.ks = .uninit ∧ s.aes = none
  /-- A RUN in progress has a command left (10_state R41) and has not passed (10_state R29). -/
  run_going : s.phase.inRun = true → s.opc.val < 13 ∧ s.pass = false
  /-- A POLL in progress is in state Polling (43_busy_poll R244) and within its bound. -/
  poll_going : s.phase = .running .poll ∨ s.phase = .running .runPoll →
    s.pollRdy = false ∧ PollsWithin s
  /-- A RUN polls only where its program has POLL (43_busy_poll R248). -/
  run_polls : s.phase = .running .runPoll → program s.opc = some .poll
  /-- A pass stands with the completed program (10_state R31). -/
  pass_done : s.pass = true → s.opc = 13

/-- A run has completed: the core is Idle and the host has no move left (70_reset_and_hazards R365 a). -/
def State.completed (s : State) : Prop := s.phase = .idle ∧ s.inbox = [] ∧ s.frame = none

/-- A run has halted (70_reset_and_hazards R365 b). -/
def State.halted (s : State) : Prop := s.phase = .halted ∧ s.frame = none

/-- A safe run of `n` steps: it reaches a state, with no model fault and no refusal on the way. -/
def SafeRun (n : Nat) (s t : State) : Prop := Host.Core.run Sys2Proof.core n s = .next t

/-- The state after a transaction has gone out and left the record `r` (42_transport R206, R208). -/
def State.sent (s : State) (r : TxnRecord) : State :=
  { s with okDraws := s.okDraws.rest, trace := s.trace ++ [r] }

/-- The record of a good transaction of the table: the bytes written and the bytes read. -/
def goodRecord (c : Config) (k : Kind) (a : Word) (out input : List Byte) : TxnRecord :=
  txnRecord (descriptor c k) k a out true input

/-- The record of a failed transaction of the table. -/
def lostRecord (c : Config) (k : Kind) (a : Word) (out : List Byte) : TxnRecord :=
  txnRecord (descriptor c k) k a out false []

/-- The device after a failed transaction: array, latch and busy state drawn afresh (20_memory R80). -/
def lostDevice (d : Device) : Device :=
  ⟨[], d.epoch + 1, Config.freeWel (d.epoch + 1), Config.freeBusy (d.epoch + 1)⟩

/-- Bit 0 of the status byte of the next Read-Status (20_memory R74). -/
def State.wipNext (s : State) : Bool := if s.dev.busy then s.wipAt 0 else false

/-- The status byte of the next Read-Status (20_memory R74). -/
def State.statusNext (s : State) : Byte := statusByte (s.hiAt 0) s.wipNext

/-- The device and the draws after the next Read-Status answers well (20_memory R74): a busy device
draws whether it has finished. -/
def State.statusRead (s : State) : State :=
  { s with
    dev := { s.dev with busy := s.wipNext }
    hiDraws := s.hiDraws.rest
    wipDraws := if s.dev.busy then s.wipDraws.rest else s.wipDraws }

/-- The 64 bytes of the array from `a` on (20_memory R78). -/
def State.flashPage (s : State) (a : Nat) : List Byte :=
  (List.range 64).map fun i => s.flashByte (a + i)

/-- The array after an accepted sector erase at `a` (20_memory R76): every byte of the sector is 0xFF,
every other byte is as before; the latch is clear and the device busy. -/
def Erased (s t : State) (a : Nat) : Prop :=
  (∀ x, t.flashByte x =
    if a ≤ x ∧ x < a + s.cfg.sectorSize then 0xFF else s.flashByte x) ∧
  t.dev.wel = false ∧ t.dev.busy = true ∧ t.dev.epoch = s.dev.epoch

/-- The array after an accepted program of `v` at `a` (20_memory R77): every byte of the page is the and
of the old byte and the data, every other byte is as before; the latch is clear and the device busy. -/
def Programmed (s t : State) (a : Nat) (v : List Byte) : Prop :=
  (∀ x, t.flashByte x =
    if a ≤ x ∧ x < a + 64 then s.flashByte x &&& v.getD (x - a) 0 else s.flashByte x) ∧
  t.dev.wel = false ∧ t.dev.busy = true ∧ t.dev.epoch = s.dev.epoch

/-- The `k`-th poll can still be issued: below the bound, and below the end of the count
(43_busy_poll R240, R243). -/
def PollBudget (s : State) (k : Nat) : Prop :=
  k ≤ 2 ^ 32 - 1 ∧ ∀ m, s.cfg.maxPolls = some m → k ≤ m

/-- The premises of the end-to-end law of RUN (44_orchestrator R278): the parameters and the target
address meet their constraints, the device is idle, every transport and engine draw is good, and the
two polls see `k1` and `k2` busy statuses before the ready one. -/
structure GoodRun (s : State) (k1 k2 : Nat) : Prop where
  no_frame : s.frame = none
  idle : s.phase = .idle
  config : s.cfg.Valid
  aligned : s.addr.toNat % s.cfg.sectorSize = 0
  in_device : s.addr.toNat + pageSize ≤ s.cfg.deviceSize
  mem_wf : s.dev.mem.wf s.dev.base = true
  not_busy : s.dev.busy = false
  latch_clear : s.dev.wel = false
  transport : ∀ i, i < 8 + k1 + k2 → s.okAt i = true
  engine : s.engineAt 0 = true ∧ s.engineAt 1 = true
  busy1 : ∀ i, i < k1 → s.wipAt i = true
  ready1 : s.wipAt k1 = false
  busy2 : ∀ i, i < k2 → s.wipAt (k1 + 1 + i) = true
  ready2 : s.wipAt (k1 + 1 + k2) = false
  budget1 : PollBudget s (k1 + 1)
  budget2 : PollBudget s (k2 + 1)

end Sys2Proof.Machine
end

