-- ==== Sys2Proof/Certificates/Slice0/Obligations.lean ====
section
/-! DEFINITION. The statements for the provers, from the numbered rules of spec/. -/

open Sys2Proof Sys2Proof.Machine

/-! ## A step runs what it finds -/

/-- 10_state R23: a word in `CMD` of an Idle core is decoded and its command run. 20_memory R71, with
the model's `frame` (log 12): a frame on the bus is decoded and answered. -/
def Obligations.StepRunsTheDecodedInstruction : Prop :=
  (∀ (s : State) (w : Word) (rest : List HostAction) (i : Instr),
    s.frame = none → s.phase = .idle → s.inbox = .writeCmd w :: rest →
    decode (.command w) = .ok i →
    step s = exec i { s with inbox := rest }) ∧
  (∀ (s : State) (bytes : List Byte) (i : Instr),
    s.frame = some bytes → decode (.frame bytes) = .ok i →
    step s = exec i { s with frame := none })

/-- 44_orchestrator R271, R272, R275: a step inside RUN is the program's command, then `OPC + 1` if it
completed, the pass when that reaches 13, nothing after a halt or while a POLL goes on. -/
def Obligations.StepRunsTheProgramOfARun : Prop :=
  ∀ (s : State) (i : Instr),
    s.frame = none → s.phase = .running .run → program s.opc = some i →
    (∀ f, exec i s = .fault f → step s = .fault f) ∧
    (∀ t, exec i s = .next t →
      (t.phase = .halted → step s = .next t) ∧
      (t.phase = .running .runPoll → step s = .next t) ∧
      (t.phase = .running .run → t.opc.val < 12 → step s = .next { t with opc := t.opc + 1 }) ∧
      (t.phase = .running .run → t.opc.val = 12 →
        step s = .next { t with opc := 13, pass := true, phase := .idle, log := t.log ++ [.pass] }))

/-- 44_orchestrator R270: the thirteen words of the program; slot 13 holds none. -/
def Obligations.ProgramIsTheFixedSequence : Prop :=
  (List.finRange 14).map (fun k => (program k).map encode) =
    [some (.command 0x00000013), some (.command 0x00000023), some (.command 0x00000004),
      some (.command 0x00000243), some (.command 0x00000025), some (.command 0x00000006),
      some (.command 0x00004101), some (.command 0x00000013), some (.command 0x00000133),
      some (.command 0x00000004), some (.command 0x00000343), some (.command 0x00004432),
      some (.command 0x00000047), none]

/-- 10_state R24, R46: the host writes `ADDR` while the core is Idle. 30_encoding R112: a refused word
ends the step by name. The model's choices: without a move the core waits (log 3); a frame without a
meaning ends the step by name (log 12). -/
def Obligations.HostMovesAndRefusals : Prop :=
  (∀ (s : State), s.frame = none → s.phase = .idle →
    (∀ v rest, s.inbox = .writeAddr v :: rest → step s = .next { s with addr := v, inbox := rest }) ∧
    (s.inbox = [] → step s = .next s) ∧
    (∀ w rest why, s.inbox = .writeCmd w :: rest → decode (.command w) = .error why →
      step s = .refused (.refusedWord why w))) ∧
  (∀ (s : State) (bytes : List Byte) (why : Reject),
    s.frame = some bytes → decode (.frame bytes) = .error why →
    step s = .refused (.refusedFrame why bytes))

/-! ## Encoding -/

/-- Every well-formed instruction is what its own words decode to. -/
def Obligations.DecodeOfEncode : Prop :=
  ∀ i : Instr, i.WellFormed → decode (encode i) = .ok i

/-- Every word and every frame that decodes is the encoding of a well-formed instruction. -/
def Obligations.EncodeOfDecode : Prop :=
  ∀ (e : Encoded) (i : Instr), decode e = .ok i → i.WellFormed ∧ encode i = e

/-- Words written out from the encodings of 30_encoding R100 to R103, R105, R130 and 41_descriptors R184,
one of each instruction, decode to what they stand for. -/
def Obligations.WrittenWordsDecode : Prop :=
  decode (.command 0x00004101) = .ok (.enc .P .C 4) ∧
  decode (.command 0x00004432) = .ok (.dec .R .D 4) ∧
  decode (.command 0x00000003) = .ok .xactReadStatus ∧
  decode (.command 0x00000013) = .ok .xactWriteEnable ∧
  decode (.command 0x00000023) = .ok .xactSectorErase ∧
  decode (.command 0x00000133) = .ok (.xactQuadPageProgram .C) ∧
  decode (.command 0x00000243) = .ok (.xactQuadIoRead .E) ∧
  decode (.command 0x00000004) = .ok .poll ∧
  decode (.command 0x00000025) = .ok (.chkff .E) ∧
  decode (.command 0x00000006) = .ok (.fill .P) ∧
  decode (.command 0x00000047) = .ok (.cmp .D .P) ∧
  decode (.command 0x00000008) = .ok .run ∧
  decode (.frame [0x05]) = .ok .flashReadStatus ∧
  decode (.frame [0x06]) = .ok .flashWriteEnable ∧
  decode (.frame [0xDC, 0x00, 0x04, 0x00, 0x00]) = .ok (.flashSectorErase 0x00040000) ∧
  decode (.frame ([0x34, 0x00, 0x00, 0x01, 0x40] ++ List.replicate 64 0xA5))
    = .ok (.flashQuadPageProgram 0x140 (List.replicate 64 0xA5)) ∧
  decode (.frame [0xEC, 0x12, 0x34, 0x56, 0x78, 0xFF]) = .ok (.flashQuadIoRead 0x12345678 (some 0xFF))

/-- 30_encoding R106, R107 (and the ranges of R108): exactly the words that meet the table of R102
decode. -/
def Obligations.ExactlyTheLegalWordsDecode : Prop :=
  ∀ w : Word,
    let op := (w.extractLsb' 0 4).toNat
    let a := (w.extractLsb' 4 4).toNat
    let b := (w.extractLsb' 8 4).toNat
    let n := (w.extractLsb' 12 4).toNat
    (∃ i, decode (.command w) = .ok i) ↔
      w.extractLsb' 16 16 = 0 ∧
        (((op = 1 ∨ op = 2) ∧ a ≤ 4 ∧ b ≤ 4 ∧ n ≤ 4) ∨
         (op = 3 ∧ n = 0 ∧ ((a ≤ 2 ∧ b = 0) ∨ ((a = 3 ∨ a = 4) ∧ b ≤ 4))) ∨
         ((op = 4 ∨ op = 8) ∧ a = 0 ∧ b = 0 ∧ n = 0) ∨
         ((op = 5 ∨ op = 6) ∧ a ≤ 4 ∧ b = 0 ∧ n = 0) ∨
         (op = 7 ∧ a ≤ 4 ∧ b ≤ 4 ∧ n = 0))

/-- 30_encoding R109, R119: the first check that fails names the refusal of a word; an instruction byte
that is none of the five is refused whatever follows it. -/
def Obligations.FirstFailingCheckNamesTheRefusal : Prop :=
  (∀ w : Word,
    let op := (w.extractLsb' 0 4).toNat
    let a := (w.extractLsb' 4 4).toNat
    let b := (w.extractLsb' 8 4).toNat
    let n := (w.extractLsb' 12 4).toNat
    (w.extractLsb' 16 16 ≠ 0 → decode (.command w) = .error .reservedBits) ∧
    (w.extractLsb' 16 16 = 0 →
      ((op = 0 ∨ 9 ≤ op) → decode (.command w) = .error .reservedOpcode) ∧
      ((op = 1 ∨ op = 2) → (4 < a ∨ 4 < b ∨ 4 < n) → decode (.command w) = .error .operandRange) ∧
      (op = 3 → n ≠ 0 → decode (.command w) = .error .reservedBits) ∧
      (op = 3 → n = 0 → 4 < a → decode (.command w) = .error .operandRange) ∧
      (op = 3 → n = 0 → a ≤ 2 → b ≠ 0 → decode (.command w) = .error .reservedBits) ∧
      (op = 3 → n = 0 → (a = 3 ∨ a = 4) → 4 < b → decode (.command w) = .error .operandRange) ∧
      ((op = 4 ∨ op = 8) → (a ≠ 0 ∨ b ≠ 0 ∨ n ≠ 0) → decode (.command w) = .error .reservedBits) ∧
      ((op = 5 ∨ op = 6) → (b ≠ 0 ∨ n ≠ 0) → decode (.command w) = .error .reservedBits) ∧
      ((op = 5 ∨ op = 6) → b = 0 → n = 0 → 4 < a → decode (.command w) = .error .operandRange) ∧
      (op = 7 → n ≠ 0 → decode (.command w) = .error .reservedBits) ∧
      (op = 7 → n = 0 → (4 < a ∨ 4 < b) → decode (.command w) = .error .operandRange))) ∧
  (∀ (op : Byte) (rest : List Byte), op ∉ [0x05, 0x06, 0xDC, 0x34, 0xEC] →
    decode (.frame (op :: rest)) = .error .unknownFlashOpcode)

/-- 30_encoding R130, R131: every word of the assembler table by its formula, and the expansions of the
pseudo-instructions into the host's moves. -/
def Obligations.AssemblerWordsAndExpansions : Prop :=
  (∀ (x y : BufId) (n : Nat), n ≤ 4 →
    encode (.enc x y n) = .command (0x00000001 ||| BitVec.ofNat 32 n <<< 12
      ||| BitVec.ofNat 32 (bufId y) <<< 8 ||| BitVec.ofNat 32 (bufId x) <<< 4) ∧
    encode (.dec x y n) = .command (0x00000002 ||| BitVec.ofNat 32 n <<< 12
      ||| BitVec.ofNat 32 (bufId y) <<< 8 ||| BitVec.ofNat 32 (bufId x) <<< 4) ∧
    encode (.xactQuadPageProgram x) = .command (0x00000033 ||| BitVec.ofNat 32 (bufId x) <<< 8) ∧
    encode (.xactQuadIoRead x) = .command (0x00000043 ||| BitVec.ofNat 32 (bufId x) <<< 8) ∧
    encode (.chkff x) = .command (0x00000005 ||| BitVec.ofNat 32 (bufId x) <<< 4) ∧
    encode (.fill x) = .command (0x00000006 ||| BitVec.ofNat 32 (bufId x) <<< 4) ∧
    encode (.cmp x y) = .command (0x00000007 ||| BitVec.ofNat 32 (bufId y) <<< 8
      ||| BitVec.ofNat 32 (bufId x) <<< 4)) ∧
  (encode .xactReadStatus = .command 0x00000003 ∧ encode .xactWriteEnable = .command 0x00000013 ∧
    encode .xactSectorErase = .command 0x00000023 ∧ encode .poll = .command 0x00000004 ∧
    encode .run = .command 0x00000008) ∧
  (∀ (i : Instr) (w : Word) (v : Word), encode i = .command w →
    AsmLine.moves (.command i) = [.writeCmd w] ∧ AsmLine.moves (.setAddr v) = [.writeAddr v]) ∧
  (∀ (a : Word) (b c : BufId),
    AsmLine.moves .rdsr = [.writeCmd 0x00000003] ∧
    AsmLine.moves .wren = [.writeCmd 0x00000013] ∧
    AsmLine.moves (.erase a) = [.writeAddr a, .writeCmd 0x00000023] ∧
    AsmLine.moves (.prog a b) = [.writeAddr a, .writeCmd (0x00000033 ||| BitVec.ofNat 32 (bufId b) <<< 8)] ∧
    AsmLine.moves (.read a b) = [.writeAddr a, .writeCmd (0x00000043 ||| BitVec.ofNat 32 (bufId b) <<< 8)] ∧
    AsmLine.moves (.runAt a) = [.writeAddr a, .writeCmd 0x00000008] ∧
    AsmLine.moves (.enc4 b c) = AsmLine.moves (.command (.enc b c 4)) ∧
    AsmLine.moves (.dec4 b c) = AsmLine.moves (.command (.dec b c 4)))

/-! ## The cipher -/

/-- 40_cipher R143: `xtime` by its formula, `a • b` as the xor of `xtime^i(a)` over the bits `i` of `b`
that are 1, and the rule's three examples. -/
def Obligations.FieldArithmetic : Prop :=
  (∀ a : Byte, xtime a =
    ((a.setWidth 9 <<< 1) ^^^ (if a.getLsbD 7 then 0x11B#9 else 0x000#9)).setWidth 8) ∧
  (∀ a b : Byte, gmul a b =
    (List.range 8).foldl (fun acc i => acc ^^^ (if b.getLsbD i then xtime^[i] a else 0)) 0) ∧
  xtime 0x57 = 0xAE ∧ gmul 0x57 0x83 = 0xC1 ∧ gmul 0x57 0x13 = 0xFE

/-- 40_cipher R144, R145, R155: the S-box is the field inverse (0 maps to 0) followed by the affine map
with c = 0x63, bit by bit; the inverse table undoes it; it has no fixed point. -/
def Obligations.SboxIsInverseThenAffine : Prop :=
  (∀ x : Byte, ∃ y : Byte, (x = 0 → y = 0) ∧ (x ≠ 0 → gmul x y = 1) ∧
    ∀ i, i < 8 → (sbox x).getLsbD i =
      (y.getLsbD i ^^ y.getLsbD ((i + 4) % 8) ^^ y.getLsbD ((i + 5) % 8) ^^ y.getLsbD ((i + 6) % 8)
        ^^ y.getLsbD ((i + 7) % 8) ^^ (0x63 : Byte).getLsbD i)) ∧
  (∀ x : Byte, invSbox (sbox x) = x ∧ sbox (invSbox x) = x ∧ sbox x ≠ x)

/-- 40_cipher R146, R150, on the bytes of a block by R142: `s'[r][c] = s[r][(c + r) mod 4]`, its
inverse `s'[r][(c + r) mod 4] = s[r][c]`, that one undoes the other, and the example. -/
def Obligations.ShiftRowsRotateRows : Prop :=
  (∀ (s : AesState) (r c : Nat), r < 4 → c < 4 →
    (storeBlock (shiftRows s))[r + 4 * c]? = (storeBlock s)[r + 4 * ((c + r) % 4)]? ∧
    (storeBlock (invShiftRows s))[r + 4 * ((c + r) % 4)]? = (storeBlock s)[r + 4 * c]?) ∧
  (∀ s : AesState, invShiftRows (shiftRows s) = s) ∧
  storeBlock (shiftRows (loadBlock ((List.range 16).map (BitVec.ofNat 8)))) =
    [0x00, 0x05, 0x0a, 0x0f, 0x04, 0x09, 0x0e, 0x03, 0x08, 0x0d, 0x02, 0x07, 0x0c, 0x01, 0x06, 0x0b]

/-- 40_cipher R147, R151: both column maps by their formulas, on every column of the state array; the
second undoes the first (and, since both are bijections, the other way round); the examples. -/
def Obligations.InvMixColumnsUndoesMixColumns : Prop :=
  (∀ c0 c1 c2 c3 : Col,
    mixColumns ⟨c0, c1, c2, c3⟩ = ⟨mixCol c0, mixCol c1, mixCol c2, mixCol c3⟩ ∧
    invMixColumns ⟨c0, c1, c2, c3⟩ = ⟨invMixCol c0, invMixCol c1, invMixCol c2, invMixCol c3⟩) ∧
  (∀ a0 a1 a2 a3 : Byte,
    mixCol ⟨a0, a1, a2, a3⟩ =
      ⟨gmul 0x02 a0 ^^^ gmul 0x03 a1 ^^^ a2 ^^^ a3, a0 ^^^ gmul 0x02 a1 ^^^ gmul 0x03 a2 ^^^ a3,
        a0 ^^^ a1 ^^^ gmul 0x02 a2 ^^^ gmul 0x03 a3, gmul 0x03 a0 ^^^ a1 ^^^ a2 ^^^ gmul 0x02 a3⟩ ∧
    invMixCol ⟨a0, a1, a2, a3⟩ =
      ⟨gmul 0x0e a0 ^^^ gmul 0x0b a1 ^^^ gmul 0x0d a2 ^^^ gmul 0x09 a3,
        gmul 0x09 a0 ^^^ gmul 0x0e a1 ^^^ gmul 0x0b a2 ^^^ gmul 0x0d a3,
        gmul 0x0d a0 ^^^ gmul 0x09 a1 ^^^ gmul 0x0e a2 ^^^ gmul 0x0b a3,
        gmul 0x0b a0 ^^^ gmul 0x0d a1 ^^^ gmul 0x09 a2 ^^^ gmul 0x0e a3⟩) ∧
  (∀ s : AesState, invMixColumns (mixColumns s) = s ∧ mixColumns (invMixColumns s) = s) ∧
  mixCol ⟨0xdb, 0x13, 0x53, 0x45⟩ = ⟨0x8e, 0x4d, 0xa1, 0xbc⟩ ∧
  mixCol ⟨0x01, 0x01, 0x01, 0x01⟩ = ⟨0x01, 0x01, 0x01, 0x01⟩ ∧
  invMixCol ⟨0x8e, 0x4d, 0xa1, 0xbc⟩ = ⟨0xdb, 0x13, 0x53, 0x45⟩

/-- 40_cipher R148: the 44 words by the recurrence of the rule, its three helpers, the round keys, and
the example. -/
def Obligations.KeyExpansionRecurrence : Prop :=
  (∀ key : Vector Byte 16,
    let w := keyExpansion key
    w.length = 44 ∧
    (∀ i, (h : i < 4) → w[i]? = some ⟨key[4 * i], key[4 * i + 1], key[4 * i + 2], key[4 * i + 3]⟩) ∧
    (∀ i, 4 ≤ i → i < 44 → ∃ before previous,
      w[i - 4]? = some before ∧ w[i - 1]? = some previous ∧
      w[i]? = some (before.xor
        (if i % 4 = 0 then (subWord (rotWord previous)).xor ⟨rcon (i / 4), 0x00, 0x00, 0x00⟩
          else previous))) ∧
    (∀ r, r ≤ 10 → w[4 * r]? = some (roundKey w r).c0 ∧ w[4 * r + 1]? = some (roundKey w r).c1 ∧
      w[4 * r + 2]? = some (roundKey w r).c2 ∧ w[4 * r + 3]? = some (roundKey w r).c3)) ∧
  (∀ b0 b1 b2 b3 : Byte, rotWord ⟨b0, b1, b2, b3⟩ = ⟨b1, b2, b3, b0⟩ ∧
    subWord ⟨b0, b1, b2, b3⟩ = ⟨sbox b0, sbox b1, sbox b2, sbox b3⟩) ∧
  (List.range 10).map (fun i => rcon (i + 1)) =
    [0x01, 0x02, 0x04, 0x08, 0x10, 0x20, 0x40, 0x80, 0x1B, 0x36] ∧
  (
    let w := keyExpansion #v[0x2b, 0x7e, 0x15, 0x16, 0x28, 0xae, 0xd2, 0xa6,
      0xab, 0xf7, 0x15, 0x88, 0x09, 0xcf, 0x4f, 0x3c]
    (w.drop 4).take 4 = [⟨0xa0, 0xfa, 0xfe, 0x17⟩, ⟨0x88, 0x54, 0x2c, 0xb1⟩, ⟨0x23, 0xa3, 0x39, 0x39⟩,
      ⟨0x2a, 0x6c, 0x76, 0x05⟩] ∧
    w.drop 40 = [⟨0xd0, 0x14, 0xf9, 0xa8⟩, ⟨0xc9, 0xee, 0x25, 0x89⟩, ⟨0xe1, 0x3f, 0x0c, 0xc8⟩,
      ⟨0xb6, 0x63, 0x0c, 0xa6⟩])

/-- 40_cipher R152, R153 with R142, R149: the cipher and its inverse are the rounds of the rules in
order, on the bytes of a block; the examples of R152, R153 and of R155. -/
def Obligations.CipherFollowsItsRounds : Prop :=
  (∀ (w : List Col) (x : List Byte),
    cipher w x = storeBlock (addRoundKey w 10 (shiftRows (subBytes
      ([1, 2, 3, 4, 5, 6, 7, 8, 9].foldl
        (fun s round => addRoundKey w round (mixColumns (shiftRows (subBytes s))))
        (addRoundKey w 0 (loadBlock x)))))) ∧
    invCipher w x = storeBlock (addRoundKey w 0 (invSubBytes (invShiftRows
      ([9, 8, 7, 6, 5, 4, 3, 2, 1].foldl
        (fun s round => invMixColumns (addRoundKey w round (invSubBytes (invShiftRows s))))
        (addRoundKey w 10 (loadBlock x))))))) ∧
  (
    let w := keyExpansion #v[0x00, 0x01, 0x02, 0x03, 0x04, 0x05, 0x06, 0x07,
      0x08, 0x09, 0x0a, 0x0b, 0x0c, 0x0d, 0x0e, 0x0f]
    let plain : List Byte := [0x00, 0x11, 0x22, 0x33, 0x44, 0x55, 0x66, 0x77,
      0x88, 0x99, 0xaa, 0xbb, 0xcc, 0xdd, 0xee, 0xff]
    let coded : List Byte := [0x69, 0xc4, 0xe0, 0xd8, 0x6a, 0x7b, 0x04, 0x30,
      0xd8, 0xcd, 0xb7, 0x80, 0x70, 0xb4, 0xc5, 0x5a]
    cipher w plain = coded ∧ invCipher w coded = plain) ∧
  cipher (keyExpansion (Vector.replicate 16 0)) (List.replicate 16 0) =
    [0x66, 0xe9, 0x4b, 0xd4, 0xef, 0x8a, 0x2c, 0x3b, 0x88, 0x4c, 0xfa, 0x59, 0xca, 0x34, 0x2b, 0x2e]

/-- 40_cipher R154: `Cipher` and `InvCipher` undo each other under every key, so `Cipher` is a bijection
on 16-byte blocks. -/
def Obligations.CipherAndInverseUndoEachOther : Prop :=
  ∀ (key : Vector Byte 16),
    (∀ x : List Byte, x.length = 16 →
      (cipher (keyExpansion key) x).length = 16 ∧ (invCipher (keyExpansion key) x).length = 16 ∧
      invCipher (keyExpansion key) (cipher (keyExpansion key) x) = x ∧
      cipher (keyExpansion key) (invCipher (keyExpansion key) x) = x) ∧
    (∀ y : List Byte, y.length = 16 → ∃! x : List Byte, x.length = 16 ∧ cipher (keyExpansion key) x = y)

/-! ## Buffers and the engine's commands -/

/-- 20_memory R61: what the three buffer primitives do to each cell, and that a buffer is written alone. -/
def Obligations.BufferCells : Prop :=
  (∀ (v : Buffer) (off n : Nat) (h : off + n ≤ 64),
    (∀ l, v.bytes off n = some l ↔
      l.length = n ∧ ∀ i, (hi : i < n) → v[off + i] = l[i]?) ∧
    (v.bytes off n = none ↔ ∃ i, ∃ hi : i < n, v[off + i] = none) ∧
    (∀ l, l.length = n → ∀ i, (hi : i < 64) →
      (v.put off l)[i] = if off ≤ i ∧ i < off + n then l[i - off]? else v[i]) ∧
    (∀ i, (hi : i < 64) → (v.undef off n)[i] = if off ≤ i ∧ i < off + n then none else v[i])) ∧
  (∀ (bs : Buffers) (b c : BufId) (v : Buffer), (bs.set b v).get c = if c = b then v else bs.get c)

/-- 40_cipher R160 to R163: a good ENC or DEC of `n` blocks writes the `16n` bytes of the blocks under
the expanded key to the destination, logs them, makes one engine draw, leaves the engine uninitialised
and empty, and changes nothing else. -/
def Obligations.EncDecResult : Prop :=
  ∀ (s : State) (src dst : BufId) (n : Nat) (input : List Byte),
    1 ≤ n → n ≤ 4 → (s.buf src).bytes 0 (16 * n) = some input → s.engineAt 0 = true →
    let w := keyExpansion s.cfg.aesKey
    let done := fun (out : List Byte) (tag : DumpTag) =>
      { s with
        bufs := s.bufs.set dst ((s.buf dst).put 0 out)
        ks := .uninit
        aes := none
        log := s.log ++ [.dump tag out]
        engineDraws := s.engineDraws.rest }
    exec (.enc src dst n) s = .next (done (ecbBlocks (cipher w) n input) .encrypted) ∧
    exec (.dec src dst n) s = .next (done (ecbBlocks (invCipher w) n input) .decrypted)

/-- 40_cipher R166 (the spec derives it from R162 and R163): output block `i` is the cipher of input
block `i` alone, and the output has `16n` bytes. -/
def Obligations.OutputBlocksAreIndependent : Prop :=
  ∀ (w : List Col) (n : Nat) (input : List Byte),
    (ecbBlocks (cipher w) n input).length = 16 * n ∧
    (ecbBlocks (invCipher w) n input).length = 16 * n ∧
    ∀ i, i < n →
      ((ecbBlocks (cipher w) n input).drop (16 * i)).take 16 =
        cipher w ((input.drop (16 * i)).take 16) ∧
      ((ecbBlocks (invCipher w) n input).drop (16 * i)).take 16 =
        invCipher w ((input.drop (16 * i)).take 16)

/-- 40_cipher R164: with block count 0 the command completes and changes nothing. -/
def Obligations.NoBlockNoEffect : Prop :=
  ∀ (s : State) (src dst : BufId),
    exec (.enc src dst 0) s = .next s ∧ exec (.dec src dst 0) s = .next s

/-- 40_cipher R162, R163, 60_exceptions R302: when the engine reports an error the `16n` destination
bytes become unwritten and the core halts with code 5; nothing else changes. -/
def Obligations.EngineErrorHalts : Prop :=
  ∀ (s : State) (src dst : BufId) (n : Nat) (input : List Byte),
    1 ≤ n → n ≤ 4 → (s.buf src).bytes 0 (16 * n) = some input → s.engineAt 0 = false →
    let failed :=
      { s with
        bufs := s.bufs.set dst ((s.buf dst).undef 0 (16 * n))
        ks := .uninit
        aes := none
        engineDraws := s.engineDraws.rest
        err := some .cipherEngineError
        fault := true
        phase := .halted
        log := s.log ++ [.fail .cipherEngineError] }
    exec (.enc src dst n) s = .next failed ∧ exec (.dec src dst n) s = .next failed

/-- 20_memory R62, 40_cipher R162, R163: an unwritten source byte among the `16n` stops ENC and DEC
before anything else. -/
def Obligations.UnwrittenSourceFaults : Prop :=
  ∀ (s : State) (src dst : BufId) (n i : Nat) (h : i < 16 * n) (hn : n ≤ 4),
    (s.buf src)[i] = none →
    exec (.enc src dst n) s = .fault .unwrittenRead ∧ exec (.dec src dst n) s = .fault .unwrittenRead

/-- 40_cipher R154, R162, R163: a DEC of what an ENC of 1 to 4 blocks wrote gives the plaintext back,
whichever buffers are used. (With 0 blocks neither reads or writes: `NoBlockNoEffect`.) -/
def Obligations.EncThenDecGivesThePlaintext : Prop :=
  ∀ (s : State) (src mid dst : BufId) (n : Nat) (input : List Byte),
    1 ≤ n → n ≤ 4 → (s.buf src).bytes 0 (16 * n) = some input →
    s.engineAt 0 = true → s.engineAt 1 = true →
    ∃ t u, exec (.enc src mid n) s = .next t ∧ exec (.dec mid dst n) t = .next u ∧
      (u.buf dst).bytes 0 (16 * n) = some input ∧
      (∀ b, b ≠ mid → b ≠ dst → u.buf b = s.buf b) ∧ u.err = s.err

/-! ## Transactions -/

/-- 41_descriptors R184, with 42_transport R205, R206: the record of each kind, phase by phase. -/
def Obligations.RecordPhases : Prop :=
  ∀ (c : Config) (a : Word) (out input : List Byte) (ok : Bool),
    let a4 := [a.extractLsb' 24 8, a.extractLsb' 16 8, a.extractLsb' 8 8, a.extractLsb' 0 8]
    txnRecord (descriptor c .readStatus) .readStatus a out ok input =
      ⟨.readStatus, 0x05, [], [⟨.instr 0x05 .single .sdr, 8⟩, ⟨.data .read 1 .single .sdr, 8⟩],
        out, if ok then some input else none, ok⟩ ∧
    txnRecord (descriptor c .writeEnable) .writeEnable a out ok input =
      ⟨.writeEnable, 0x06, [], [⟨.instr 0x06 .single .sdr, 8⟩], out, none, ok⟩ ∧
    txnRecord (descriptor c .sectorErase) .sectorErase a out ok input =
      ⟨.sectorErase, 0xDC, a4, [⟨.instr 0xDC .single .sdr, 8⟩, ⟨.addr a4 .single .sdr, 32⟩],
        out, none, ok⟩ ∧
    txnRecord (descriptor c .quadPageProgram) .quadPageProgram a out ok input =
      ⟨.quadPageProgram, 0x34, a4, [⟨.instr 0x34 .single .sdr, 8⟩, ⟨.addr a4 .single .sdr, 32⟩,
        ⟨.data .write 64 .quad .sdr, 128⟩], out, none, ok⟩ ∧
    (c.modePhase = true →
      txnRecord (descriptor c .quadIoRead) .quadIoRead a out ok input =
        ⟨.quadIoRead, 0xEC, a4, [⟨.instr 0xEC .single .sdr, 8⟩, ⟨.addr a4 .quad .sdr, 8⟩,
          ⟨.mode 0xFF .quad .sdr, 2⟩, ⟨.dummy 4 .quad, 4⟩, ⟨.data .read 64 .quad .sdr, 128⟩],
          out, if ok then some input else none, ok⟩) ∧
    (c.modePhase = false →
      txnRecord (descriptor c .quadIoRead) .quadIoRead a out ok input =
        ⟨.quadIoRead, 0xEC, a4, [⟨.instr 0xEC .single .sdr, 8⟩, ⟨.addr a4 .quad .sdr, 8⟩,
          ⟨.dummy 4 .quad, 4⟩, ⟨.data .read 64 .quad .sdr, 128⟩],
          out, if ok then some input else none, ok⟩)

/-- 41_descriptors R182: validity is (a), (b) and (d) ((c) holds by the types of the fields), and the
five descriptors have it, so the startup check of R190 passes. -/
def Obligations.DescriptorValidity : Prop :=
  (∀ (d : CommandDescriptor) (k : Kind), validDescriptor d k = true ↔
    (d.address.disabled = true ↔ d.address.size = .none) ∧
    d.instruction.disabled = false ∧
    8 % bitsPerClock d.instruction.width d.instruction.rate = 0 ∧
    (d.address.disabled = false →
      d.address.size.bits % bitsPerClock d.address.width d.address.rate = 0) ∧
    (d.modeBits.disabled = false → 8 % bitsPerClock d.modeBits.width d.modeBits.rate = 0) ∧
    (k.len ≠ 0 → 8 * k.len % bitsPerClock d.data.width d.data.rate = 0)) ∧
  (∀ (c : Config) (k : Kind), validDescriptor (descriptor c k) k = true) ∧
  (∀ c : Config, validTable c = true)

/-- 42_transport R212, with R211 (the spec derives R212 from R211 and 41_descriptors R181): the clocks of
a transaction are the sum over its phases, a disabled phase counting 0; the five counts. -/
def Obligations.ClockCounts : Prop :=
  (∀ w r, bitsPerClock w r =
    (match w with | .single => 1 | .dual => 2 | .quad => 4) * (match r with | .sdr => 1 | .ddr => 2)) ∧
  (∀ (d : CommandDescriptor) (k : Kind) (a : Word) (out input : List Byte) (ok : Bool),
    (txnRecord d k a out ok input).clocks =
      (if d.instruction.disabled then 0 else 8 / bitsPerClock d.instruction.width d.instruction.rate) +
      (if d.address.disabled then 0
        else d.address.size.bits / bitsPerClock d.address.width d.address.rate) +
      (if d.modeBits.disabled then 0 else 8 / bitsPerClock d.modeBits.width d.modeBits.rate) +
      d.dummyCycles.count +
      8 * k.len / bitsPerClock d.data.width d.data.rate) ∧
  (∀ (c : Config) (a : Word) (out input : List Byte) (ok : Bool),
    (txnRecord (descriptor c .readStatus) .readStatus a out ok input).clocks = 16 ∧
    (txnRecord (descriptor c .writeEnable) .writeEnable a out ok input).clocks = 8 ∧
    (txnRecord (descriptor c .sectorErase) .sectorErase a out ok input).clocks = 40 ∧
    (txnRecord (descriptor c .quadPageProgram) .quadPageProgram a out ok input).clocks = 168 ∧
    (txnRecord (descriptor c .quadIoRead) .quadIoRead a out ok input).clocks =
      if c.modePhase then 150 else 148)

/-- 30_encoding R117, R118: the bytes the core drives for each kind are a frame the device decodes as
that kind at that address with that payload, and the frame has the bit count of R117. -/
def Obligations.TransactionsSendDecodableFrames : Prop :=
  ∀ (c : Config) (k : Kind) (a : Word) (out : List Byte),
    out.length = (if k = .quadPageProgram then 64 else 0) →
    decode (.frame (frameBytes (descriptor c k) a out)) =
      .ok (match k with
        | .readStatus => .flashReadStatus
        | .writeEnable => .flashWriteEnable
        | .sectorErase => .flashSectorErase a
        | .quadPageProgram => .flashQuadPageProgram a out
        | .quadIoRead => .flashQuadIoRead a (if c.modePhase then some 0xFF else none)) ∧
    8 * (frameBytes (descriptor c k) a out).length + (if k.reads then 8 * k.len else 0) =
      frameBits (descriptor c k) k

/-- 42_transport R212, R214 to R218: between the assertion of chip select and its release there are as
many bus clocks on the wire as the record counts, for a good transaction and for a failed one. -/
def Obligations.WireLengthIsClockCount : Prop :=
  ∀ (c : Config) (k : Kind) (a : Word) (out input : List Byte) (ok : Bool),
    out.length = (if k = .quadPageProgram then 64 else 0) →
    input.length = (if k.reads then k.len else 0) →
    (txnRecord (descriptor c k) k a out ok input).wire.length =
      (txnRecord (descriptor c k) k a out ok input).clocks

/-- 42_transport R214: over every trace CS# (active low) is asserted exactly once for each transaction,
before the first clock of its instruction phase, and released after its last clock; the clock idles
whenever CS# is released, so between transactions, before the first and after the last. That a moment
without a clock is one tick is the model's choice (log 17). -/
def Obligations.ChipSelectFramesEachTransaction : Prop :=
  (∀ t : List TxnRecord,
    assertions true (traceWire t) = t.length ∧
    (traceWire t).head? = some ⟨true, none⟩ ∧ (traceWire t).getLast? = some ⟨true, none⟩ ∧
    (∀ tick ∈ traceWire t, tick.csN = true → tick.clock = none)) ∧
  (∀ (before after : List TxnRecord) (rec : TxnRecord), ∃ later,
    traceWire (before ++ rec :: after) = traceWire before ++
      ⟨false, none⟩ :: (rec.wire.map (fun c => ⟨false, some c⟩) ++ ⟨true, none⟩ :: later)) ∧
  (∀ (c : Config) (k : Kind) (a : Word) (out input : List Byte) (ok : Bool),
    (txnRecord (descriptor c k) k a out ok input).wire.take 8 =
      [7, 6, 5, 4, 3, 2, 1, 0].map fun i =>
        [⟨.core, none, none, none, some ((descriptor c k).instruction.opcode.getLsbD i)⟩])

/-- 42_transport R220, 20_memory R74: a good Read-Status, as a command and as a frame: the status byte
is the draw `hi` above the write-in-progress bit, which is 0 of an idle device and the draw `wip` of a
busy one; the device is busy after it exactly when that bit is 1; the command latches the byte in
`LAST_STATUS`. Nothing else changes. It goes out whether or not the device is busy. That the frame is
answered with no command behind it and leaves `LAST_STATUS` alone is the model's choice (log 12). -/
def Obligations.ReadStatusResult : Prop :=
  ∀ s : State, s.okAt 0 = true →
    let sent := s.statusRead.sent (goodRecord s.cfg .readStatus 0 [] [s.statusNext])
    exec .xactReadStatus s = .next { sent with lastStatus := s.statusNext } ∧
    exec .flashReadStatus s = .next sent ∧
    s.statusNext.getLsbD 0 = s.wipNext ∧ s.statusNext.extractLsb' 1 7 = s.hiAt 0

/-- 42_transport R221, 20_memory R73: a good Write-Enable to an idle device, as a command and as a
frame, sets the latch and changes nothing else. That the frame is answered with no command behind it is
the model's choice (log 12). -/
def Obligations.WriteEnableResult : Prop :=
  ∀ s : State, s.okAt 0 = true → s.dev.busy = false →
    let sent := ({ s with dev := { s.dev with wel := true } }).sent
      (goodRecord s.cfg .writeEnable 0 [] [])
    exec .xactWriteEnable s = .next sent ∧ exec .flashWriteEnable s = .next sent

/-- 42_transport R223, 20_memory R76: a good Sector-Erase of an aligned sector in an idle device, as a
command and as a frame: with the latch set the sector is erased, without it nothing happens; the rest of
the machine changes by the draw and the record alone. The address stored to is `txnAddr` for the
command and the operand for the frame. That the frame is answered with no command behind it is the
model's choice (log 12). -/
def Obligations.SectorEraseResult : Prop :=
  ∀ (s : State) (i : Instr) (a : Word),
    (i = .xactSectorErase ∧ a = s.txnAddr ∨ i = .flashSectorErase a) →
    s.dev.mem.wf s.dev.base = true → s.okAt 0 = true → s.dev.busy = false →
    a.toNat % s.cfg.sectorSize = 0 → a.toNat + s.cfg.sectorSize ≤ s.cfg.deviceSize →
    ∃ t, exec i s = .next t ∧
      t = ({ s with dev := t.dev }).sent (goodRecord s.cfg .sectorErase a [] []) ∧
      (s.dev.wel = true → Erased s t a.toNat) ∧ (s.dev.wel = false → t.dev = s.dev)

/-- 42_transport R224, 20_memory R77: a good Quad Page-Program of an aligned page in an idle device, as
a command with its buffer and as a frame with its bytes: with the latch set each byte of the page becomes
the and of old byte and data, without it nothing happens; the rest of the machine changes by the draw
and the record alone. That the frame is answered with no command behind it is the model's choice
(log 12). -/
def Obligations.PageProgramResult : Prop :=
  ∀ (s : State) (i : Instr) (a : Word) (v : List Byte),
    ((∃ b, i = .xactQuadPageProgram b ∧ a = s.txnAddr ∧ (s.buf b).bytes 0 64 = some v) ∨
      (i = .flashQuadPageProgram a v ∧ v.length = 64)) →
    s.dev.mem.wf s.dev.base = true → s.okAt 0 = true → s.dev.busy = false →
    a.toNat % 64 = 0 → a.toNat + 64 ≤ s.cfg.deviceSize →
    ∃ t, exec i s = .next t ∧
      t = ({ s with dev := t.dev }).sent (goodRecord s.cfg .quadPageProgram a v []) ∧
      (s.dev.wel = true → Programmed s t a.toNat v) ∧ (s.dev.wel = false → t.dev = s.dev)

/-- 42_transport R225, 20_memory R78: a good Quad-IO-Read within an idle device: the command fills its
buffer with the 64 bytes at the address, the frame leaves them in the record only; the device and
everything else is unchanged. The model's choices: that the frame is answered with no command behind it,
and so writes no buffer (log 12), and that its mode byte does not matter (log 13). -/
def Obligations.QuadIoReadResult : Prop :=
  ∀ s : State, s.okAt 0 = true → s.dev.busy = false →
    (∀ b, s.txnAddr.toNat + 64 ≤ s.cfg.deviceSize →
      exec (.xactQuadIoRead b) s = .next
        (({ s with
            bufs := s.bufs.set b (Vector.ofFn fun i => some (s.flashByte (s.txnAddr.toNat + i.val))) }).sent
          (goodRecord s.cfg .quadIoRead s.txnAddr [] (s.flashPage s.txnAddr.toNat)))) ∧
    (∀ (a : Word) (m : Option Byte), a.toNat + 64 ≤ s.cfg.deviceSize →
      exec (.flashQuadIoRead a m) s = .next
        (s.sent (txnRecord (quadIoReadWith m) .quadIoRead a [] true (s.flashPage a.toNat))))

/-- 42_transport R222: the checks of every transaction in their order (alignment, device range, the read
of the payload, busy); the first that fails is the fault. Read-Status has none: it always goes out. The
frames make the same address checks (log 14). -/
def Obligations.CheckOrderOfTransactions : Prop :=
  (∀ s : State, s.txnAddr.toNat % s.cfg.sectorSize ≠ 0 →
    exec .xactSectorErase s = .fault .misalignedErase) ∧
  (∀ s : State, s.txnAddr.toNat % s.cfg.sectorSize = 0 →
    s.cfg.deviceSize < s.txnAddr.toNat + s.cfg.sectorSize →
    exec .xactSectorErase s = .fault .addressOutOfRange) ∧
  (∀ s : State, s.txnAddr.toNat % s.cfg.sectorSize = 0 →
    s.txnAddr.toNat + s.cfg.sectorSize ≤ s.cfg.deviceSize → s.dev.busy = true →
    exec .xactSectorErase s = .fault .deviceBusyViolation) ∧
  (∀ (s : State) (b : BufId), s.txnAddr.toNat % 64 ≠ 0 →
    exec (.xactQuadPageProgram b) s = .fault .pageCrossing) ∧
  (∀ (s : State) (b : BufId), s.txnAddr.toNat % 64 = 0 → s.cfg.deviceSize < s.txnAddr.toNat + 64 →
    exec (.xactQuadPageProgram b) s = .fault .addressOutOfRange) ∧
  (∀ (s : State) (b : BufId), s.txnAddr.toNat % 64 = 0 → s.txnAddr.toNat + 64 ≤ s.cfg.deviceSize →
    (∃ i, ∃ h : i < 64, (s.buf b)[i] = none) →
    exec (.xactQuadPageProgram b) s = .fault .unwrittenRead) ∧
  (∀ (s : State) (b : BufId), s.txnAddr.toNat % 64 = 0 → s.txnAddr.toNat + 64 ≤ s.cfg.deviceSize →
    (∀ i, (h : i < 64) → (s.buf b)[i] ≠ none) → s.dev.busy = true →
    exec (.xactQuadPageProgram b) s = .fault .deviceBusyViolation) ∧
  (∀ (s : State) (b : BufId), s.cfg.deviceSize < s.txnAddr.toNat + 64 →
    exec (.xactQuadIoRead b) s = .fault .addressOutOfRange) ∧
  (∀ (s : State) (b : BufId), s.txnAddr.toNat + 64 ≤ s.cfg.deviceSize → s.dev.busy = true →
    exec (.xactQuadIoRead b) s = .fault .deviceBusyViolation) ∧
  (∀ s : State, s.dev.busy = true → exec .xactWriteEnable s = .fault .deviceBusyViolation) ∧
  (∀ s : State, ∃ t, exec .xactReadStatus s = .next t)

/-- The checks of the frames, which are those of the commands (log 14; 42_transport R222, 20_memory
R79). -/
def Obligations.CheckOrderOfFrames : Prop :=
  ∀ (s : State) (a : Word) (v : List Byte) (m : Option Byte),
    (a.toNat % s.cfg.sectorSize ≠ 0 → exec (.flashSectorErase a) s = .fault .misalignedErase) ∧
    (a.toNat % s.cfg.sectorSize = 0 → s.cfg.deviceSize < a.toNat + s.cfg.sectorSize →
      exec (.flashSectorErase a) s = .fault .addressOutOfRange) ∧
    (a.toNat % 64 ≠ 0 → exec (.flashQuadPageProgram a v) s = .fault .pageCrossing) ∧
    (a.toNat % 64 = 0 → s.cfg.deviceSize < a.toNat + 64 →
      exec (.flashQuadPageProgram a v) s = .fault .addressOutOfRange) ∧
    (s.cfg.deviceSize < a.toNat + 64 → exec (.flashQuadIoRead a m) s = .fault .addressOutOfRange) ∧
    (s.dev.busy = true →
      exec .flashWriteEnable s = .fault .deviceBusyViolation ∧
      (a.toNat % s.cfg.sectorSize = 0 → a.toNat + s.cfg.sectorSize ≤ s.cfg.deviceSize →
        exec (.flashSectorErase a) s = .fault .deviceBusyViolation) ∧
      (a.toNat % 64 = 0 → a.toNat + 64 ≤ s.cfg.deviceSize →
        exec (.flashQuadPageProgram a v) s = .fault .deviceBusyViolation) ∧
      (a.toNat + 64 ≤ s.cfg.deviceSize →
        exec (.flashQuadIoRead a m) s = .fault .deviceBusyViolation)) ∧
    (∃ t, exec .flashReadStatus s = .next t)

/-- 42_transport R208, R209, R220 to R225, 20_memory R80, 60_exceptions R302: a transaction whose status
is an error is not issued again: the command halts the core with code 1, the record holds no read bytes,
the device is drawn afresh, a read's buffer is unwritten, and nothing else changes. That a frame, at any
address and with any payload or mode byte, does the same to the device and leaves the core alone is the
model's choice (log 12, log 13). -/
def Obligations.BusErrorResult : Prop :=
  ∀ s : State, s.okAt 0 = false →
    let lost := fun r => ({ s with dev := lostDevice s.dev }).sent r
    let halted := fun r => (lost r).raise .busTransactionError
    let a := s.txnAddr
    exec .xactReadStatus s = .next (halted (lostRecord s.cfg .readStatus 0 [])) ∧
    exec .flashReadStatus s = .next (lost (lostRecord s.cfg .readStatus 0 [])) ∧
    (s.dev.busy = false →
      exec .xactWriteEnable s = .next (halted (lostRecord s.cfg .writeEnable 0 [])) ∧
      exec .flashWriteEnable s = .next (lost (lostRecord s.cfg .writeEnable 0 [])) ∧
      (a.toNat % s.cfg.sectorSize = 0 → a.toNat + s.cfg.sectorSize ≤ s.cfg.deviceSize →
        exec .xactSectorErase s = .next (halted (lostRecord s.cfg .sectorErase a []))) ∧
      (∀ b v, a.toNat % 64 = 0 → a.toNat + 64 ≤ s.cfg.deviceSize → (s.buf b).bytes 0 64 = some v →
        exec (.xactQuadPageProgram b) s = .next (halted (lostRecord s.cfg .quadPageProgram a v))) ∧
      (∀ b, a.toNat + 64 ≤ s.cfg.deviceSize →
        exec (.xactQuadIoRead b) s = .next
          { halted (lostRecord s.cfg .quadIoRead a []) with
            bufs := s.bufs.set b (Vector.replicate 64 none) }) ∧
      (∀ x : Word, x.toNat % s.cfg.sectorSize = 0 → x.toNat + s.cfg.sectorSize ≤ s.cfg.deviceSize →
        exec (.flashSectorErase x) s = .next (lost (lostRecord s.cfg .sectorErase x []))) ∧
      (∀ (x : Word) (v : List Byte), x.toNat % 64 = 0 → x.toNat + 64 ≤ s.cfg.deviceSize →
        exec (.flashQuadPageProgram x v) s = .next (lost (lostRecord s.cfg .quadPageProgram x v))) ∧
      (∀ (x : Word) (m : Option Byte), x.toNat + 64 ≤ s.cfg.deviceSize →
        exec (.flashQuadIoRead x m) s =
          .next (lost (txnRecord (quadIoReadWith m) .quadIoRead x [] false []))))

/-! ## Polling -/

/-- 43_busy_poll R240, 20_memory R74 (the spec derives R250 from them): POLL on an idle device is Ready
after exactly one poll, inside RUN and outside it; bits 7 to 1 of the status byte do not matter. Nothing
else changes. -/
def Obligations.PollOnIdleDevice : Prop :=
  ∀ s : State, s.phase = .idle ∨ s.phase = .running .run →
    s.cfg.maxPolls ≠ some 0 → s.okAt 0 = true → s.dev.busy = false →
    exec .poll s = .next
      { s with
        pollRdy := true
        pollCnt := 1
        lastStatus := statusByte (s.hiAt 0) false
        okDraws := s.okDraws.rest
        hiDraws := s.hiDraws.rest
        trace := s.trace ++ [goodRecord s.cfg .readStatus 0 [] [statusByte (s.hiAt 0) false]] }

/-- 43_busy_poll R240 (the table R245 the spec derives from it): one iteration in state Polling, row by
row: the bound, the overflow of an unbounded count, a bus error, a busy status, a ready status. When a
POLL of RUN is Ready the RUN goes on with its next command. -/
def Obligations.PollStepTable : Prop :=
  ∀ s : State, s.frame = none →
    (s.phase = .running .poll ∨ (s.phase = .running .runPoll ∧ s.opc.val < 12)) →
    let counted := { s.statusRead.sent (goodRecord s.cfg .readStatus 0 [] [s.statusNext]) with
      pollCnt := s.pollCnt + 1, lastStatus := s.statusNext }
    let lost := { ({ s with dev := lostDevice s.dev }).sent (lostRecord s.cfg .readStatus 0 []) with
      pollCnt := s.pollCnt + 1 }
    (s.cfg.maxPolls = some s.pollCnt.toNat → step s = .next (s.raise .deviceBusyTimeout)) ∧
    (s.cfg.maxPolls = none → s.pollCnt = 0xFFFFFFFF → step s = .fault .pollCounterOverflow) ∧
    (s.cfg.maxPolls ≠ some s.pollCnt.toNat → (s.cfg.maxPolls = none → s.pollCnt ≠ 0xFFFFFFFF) →
      (s.okAt 0 = false → step s = .next (lost.raise .busTransactionError)) ∧
      (s.okAt 0 = true → s.statusNext.getLsbD 0 = true → step s = .next counted) ∧
      (s.okAt 0 = true → s.statusNext.getLsbD 0 = false →
        step s = .next
          (if s.phase = .running .poll then { counted with pollRdy := true, phase := .idle }
            else { counted with pollRdy := true, phase := .running .run, opc := s.opc + 1 })))

/-- 43_busy_poll R241: a Read-Status that fails on the bus ends the POLL with the error, at its first
poll (of the host or of RUN) or a later one: no retry, the failed poll is counted, `LAST_STATUS` keeps its
value. That a step of the halted core answers the same state is the model's choice (log 3). -/
def Obligations.PollBusErrorEndsThePoll : Prop :=
  ∀ s : State, s.frame = none → s.okAt 0 = false →
    let ended := fun (t : State) (count : Word) =>
      t.err = some .busTransactionError ∧ t.phase = .halted ∧ t.pollCnt = count ∧
        t.lastStatus = s.lastStatus ∧ t.trace = s.trace ++ [lostRecord s.cfg .readStatus 0 []] ∧
        step t = .next t
    (s.phase = .idle ∨ s.phase = .running .run → s.cfg.maxPolls ≠ some 0 →
      ∃ t, exec .poll s = .next t ∧ ended t 1) ∧
    (s.phase = .running .poll ∨ s.phase = .running .runPoll →
      s.cfg.maxPolls ≠ some s.pollCnt.toNat → (s.cfg.maxPolls = none → s.pollCnt ≠ 0xFFFFFFFF) →
      ∃ t, step s = .next t ∧ ended t (s.pollCnt + 1))

/-- 43_busy_poll R246, R247 (the spec derives R247 from R240): when the device reports busy `k` times and
then ready, with every transaction good and the bound not below `k + 1`, a POLL of the host is Ready
after exactly `k + 1` consecutive Read-Status records, with `POLLCNT = k + 1` and `LAST_STATUS` the last
byte. The count of steps is the model's choice (log 1): the first poll is the command's own step, the
others the `k` steps after it. A POLL of RUN: `PollOfARun`. -/
def Obligations.PollReachesReadyAfterKBusyPolls : Prop :=
  ∀ (s : State) (k : Nat),
    s.frame = none → s.phase = .idle → PollBudget s (k + 1) →
    (∀ i, i ≤ k → s.okAt i = true) → (k = 0 ∨ s.dev.busy = true) →
    (∀ i, i < k → s.wipAt i = true) → (s.dev.busy = true → s.wipAt k = false) →
    ∃ t, exec .poll s = .next t ∧
      SafeRun k t
        { s with
          pollRdy := true
          pollCnt := BitVec.ofNat 32 (k + 1)
          lastStatus := statusByte (s.hiAt k) false
          dev := { s.dev with busy := false }
          okDraws := Draws.rest^[k + 1] s.okDraws
          hiDraws := Draws.rest^[k + 1] s.hiDraws
          wipDraws := if s.dev.busy then Draws.rest^[k + 1] s.wipDraws else s.wipDraws
          trace := s.trace ++ (List.range (k + 1)).map fun i =>
            goodRecord s.cfg .readStatus 0 [] [statusByte (s.hiAt i) (decide (i < k))] }

/-- 43_busy_poll R243: with `MAX_POLLS = m`, a POLL of the host that sees only busy statuses issues
exactly `m` Read-Status transactions, halts with code 2 and `POLLCNT = m`, and issues nothing more;
without a bound no POLL ends in that error. The model's choices: the count of steps (log 1), and that a
step of the halted core answers the same state (log 3). A POLL of RUN: `PollOfARun`. -/
def Obligations.PollTimeout : Prop :=
  (∀ (s : State) (m : Nat),
    s.frame = none → s.phase = .idle → s.cfg.maxPolls = some m → 1 ≤ m → m ≤ 2 ^ 32 - 1 →
    s.dev.busy = true → (∀ i, i < m → s.okAt i = true) → (∀ i, i < m → s.wipAt i = true) →
    ∃ t u, exec .poll s = .next t ∧ SafeRun m t u ∧ (∀ n, SafeRun n u u) ∧
      u.phase = .halted ∧ u.err = some .deviceBusyTimeout ∧ u.pollCnt.toNat = m ∧
      u.pollRdy = false ∧ u.log = s.log ++ [.fail .deviceBusyTimeout] ∧
      u.trace = s.trace ++ (List.range m).map fun i =>
        goodRecord s.cfg .readStatus 0 [] [statusByte (s.hiAt i) true]) ∧
  (∀ s t : State, s.cfg.maxPolls = none → s.err = none →
    (exec .poll s = .next t ∨ step s = .next t) → t.err ≠ some .deviceBusyTimeout)

/-- 43_busy_poll R240, R242, R243, 44_orchestrator R271: the same for a POLL of RUN, counted in steps of
the machine (log 1). After `k` busy statuses and a ready one the RUN stands at its next command; after
`m` busy statuses under `MAX_POLLS = m` the core has halted with code 2 at the POLL's index. -/
def Obligations.PollOfARun : Prop :=
  (∀ (s : State) (k : Nat),
    s.frame = none → s.phase = .running .run → program s.opc = some .poll → PollBudget s (k + 1) →
    (∀ i, i ≤ k → s.okAt i = true) → (k = 0 ∨ s.dev.busy = true) →
    (∀ i, i < k → s.wipAt i = true) → (s.dev.busy = true → s.wipAt k = false) →
    SafeRun (k + 1) s
      { s with
        opc := s.opc + 1
        pollRdy := true
        pollCnt := BitVec.ofNat 32 (k + 1)
        lastStatus := statusByte (s.hiAt k) false
        dev := { s.dev with busy := false }
        okDraws := Draws.rest^[k + 1] s.okDraws
        hiDraws := Draws.rest^[k + 1] s.hiDraws
        wipDraws := if s.dev.busy then Draws.rest^[k + 1] s.wipDraws else s.wipDraws
        trace := s.trace ++ (List.range (k + 1)).map fun i =>
          goodRecord s.cfg .readStatus 0 [] [statusByte (s.hiAt i) (decide (i < k))] }) ∧
  (∀ (s : State) (m : Nat),
    s.frame = none → s.phase = .running .run → program s.opc = some .poll →
    s.cfg.maxPolls = some m → 1 ≤ m → m ≤ 2 ^ 32 - 1 →
    s.dev.busy = true → (∀ i, i < m → s.okAt i = true) → (∀ i, i < m → s.wipAt i = true) →
    ∃ u, SafeRun (m + 1) s u ∧ u.phase = .halted ∧ u.err = some .deviceBusyTimeout ∧
      u.pollCnt.toNat = m ∧ u.pollRdy = false ∧ u.opc = s.opc ∧
      u.log = s.log ++ [.fail .deviceBusyTimeout] ∧
      u.trace = s.trace ++ (List.range m).map fun i =>
        goodRecord s.cfg .readStatus 0 [] [statusByte (s.hiAt i) true])

/-! ## The orchestrator -/

/-- 44_orchestrator R261: FILL writes byte `i` of the buffer with `i`, whatever the buffer held, and
changes nothing else. -/
def Obligations.FillResult : Prop :=
  ∀ (s : State) (b : BufId),
    encode (.fill b) = .command (0x00000006 ||| BitVec.ofNat 32 (bufId b) <<< 4) ∧
    exec (.fill b) s = .next
      { s with bufs := s.bufs.set b (Vector.ofFn fun i => some (BitVec.ofNat 8 i.val)) }

/-- 44_orchestrator R260: CHKFF of an erased buffer changes nothing, of a written buffer with a byte that
is not 0xFF halts with code 3, of a buffer with an unwritten byte faults. -/
def Obligations.CheckErasedResult : Prop :=
  ∀ (s : State) (b : BufId),
    encode (.chkff b) = .command (0x00000005 ||| BitVec.ofNat 32 (bufId b) <<< 4) ∧
    ((∀ i, (h : i < 64) → (s.buf b)[i] = some 0xFF) → exec (.chkff b) s = .next s) ∧
    ((∀ i, (h : i < 64) → (s.buf b)[i] ≠ none) →
      (∃ i, ∃ h : i < 64, (s.buf b)[i] ≠ some 0xFF) →
      exec (.chkff b) s = .next (s.raise .eraseVerifyMismatch)) ∧
    ((∃ i, ∃ h : i < 64, (s.buf b)[i] = none) → exec (.chkff b) s = .fault .unwrittenRead)

/-- 44_orchestrator R262: CMP of two written buffers changes nothing when all 64 bytes are equal and
halts with code 4 when one differs; an unwritten byte in either faults, whatever the others hold. -/
def Obligations.CompareResult : Prop :=
  ∀ (s : State) (x y : BufId),
    encode (.cmp x y) = .command (0x00000007 ||| BitVec.ofNat 32 (bufId y) <<< 8
      ||| BitVec.ofNat 32 (bufId x) <<< 4) ∧
    ((∀ i, (h : i < 64) → (s.buf x)[i] ≠ none ∧ (s.buf y)[i] ≠ none) →
      ((∀ i, (h : i < 64) → (s.buf x)[i] = (s.buf y)[i]) → exec (.cmp x y) s = .next s) ∧
      ((∃ i, ∃ h : i < 64, (s.buf x)[i] ≠ (s.buf y)[i]) →
        exec (.cmp x y) s = .next (s.raise .programReadbackMismatch))) ∧
    ((∃ i, ∃ h : i < 64, (s.buf x)[i] = none ∨ (s.buf y)[i] = none) →
      exec (.cmp x y) s = .fault .unwrittenRead)

/-- 44_orchestrator R272, 42_transport section 4: RUN loads its target and clears `PASS` and `OPC`; what
it does after that is the thirteen commands of the steps that follow (log 1). The address of a
transaction is `RUN_T` inside RUN and `ADDR` for a command of the host. -/
def Obligations.RunStarts : Prop :=
  (∀ s : State, exec .run s = .next
    { s with runT := s.addr, pass := false, opc := 0, phase := .running .run }) ∧
  (∀ s : State,
    (s.phase = .running .run → s.txnAddr = s.runT) ∧ (s.phase = .idle → s.txnAddr = s.addr))

/-- 44_orchestrator R271, R274, R275, 60_exceptions R302: a step inside RUN goes on at the same command
or at the next one, or passes after the last command, or halts at the command's index; `PASS` is 0 but
for the pass, and the target does not move. -/
def Obligations.RunIsAllOrNothing : Prop :=
  ∀ s t : State, s.Inv → s.frame = none → s.phase.inRun = true → step s = .next t →
    t.runT = s.runT ∧
    ((t.phase.inRun = true ∧ t.pass = false ∧ t.err = none ∧
        (t.opc = s.opc ∨ t.opc.val = s.opc.val + 1)) ∨
      (t.phase = .idle ∧ t.pass = true ∧ t.err = none ∧ s.opc.val = 12 ∧ t.opc.val = 13 ∧
        t.log = s.log ++ [.pass]) ∨
      (t.phase = .halted ∧ t.pass = false ∧ t.opc = s.opc ∧
        ∃ e, t.err = some e ∧ t.log = s.log ++ [.fail e]))

/-- 44_orchestrator R270, 60_exceptions R300 (the table R276 the spec derives from them): the errors a
step of RUN can raise, by the index of its command. -/
def Obligations.RunErrorsByStep : Prop :=
  ∀ (s t : State) (e : CoreError), s.Inv → s.frame = none → s.phase.inRun = true →
    step s = .next t → t.err = some e →
    (s.opc.val ∈ [0, 1, 3, 7, 8, 10] → e = .busTransactionError) ∧
    (s.opc.val ∈ [2, 9] → e = .busTransactionError ∨
      (e = .deviceBusyTimeout ∧ s.cfg.maxPolls ≠ none)) ∧
    (s.opc.val = 4 → e = .eraseVerifyMismatch) ∧
    s.opc.val ≠ 5 ∧
    (s.opc.val = 6 ∨ s.opc.val = 11 → e = .cipherEngineError) ∧
    (s.opc.val = 12 → e = .programReadbackMismatch)

/-- The end-to-end law of RUN (44_orchestrator R270 to R275, 40_cipher R154, 20_memory R74 to R78; the
spec derives its R278 from them): from a good start, with every draw good and each poll ready in the end,
RUN passes: the page holds the ciphertext of the pattern, the rest of the sector 0xFF, the rest of the
array what it held; the buffers hold what R278 says. The count of steps is the model's choice (log 1). -/
def Obligations.RunEndToEnd : Prop :=
  ∀ (s : State) (k1 k2 : Nat), GoodRun s k1 k2 →
    let target := s.addr.toNat
    let pattern : List Byte := (List.range 64).map (BitVec.ofNat 8)
    let coded := ecbBlocks (cipher (keyExpansion s.cfg.aesKey)) 4 pattern
    ∃ t u, exec .run s = .next t ∧ SafeRun (13 + k1 + k2) t u ∧
      u.phase = .idle ∧ u.pass = true ∧ u.opc.val = 13 ∧ u.err = s.err ∧ u.fault = s.fault ∧
      (∀ i, i < 64 → some (u.flashByte (target + i)) = coded[i]?) ∧
      (∀ x, target + 64 ≤ x → x < target + s.cfg.sectorSize → u.flashByte x = 0xFF) ∧
      (∀ x, x < target ∨ target + s.cfg.sectorSize ≤ x → u.flashByte x = s.flashByte x) ∧
      (∀ i, (h : i < 64) →
        (u.buf .P)[i] = some (BitVec.ofNat 8 i) ∧ (u.buf .D)[i] = some (BitVec.ofNat 8 i) ∧
        (u.buf .E)[i] = some 0xFF ∧ (u.buf .R)[i] = coded[i]? ∧ (u.buf .C)[i] = coded[i]?) ∧
      u.log = s.log ++ [.dump .encrypted coded, .dump .decrypted pattern, .pass] ∧
      u.runT = s.addr ∧ u.addr = s.addr ∧ u.inbox = s.inbox

/-- The transactions and bus clocks of a good RUN (42_transport R212, 44_orchestrator R270; the spec
derives its R360 from them): the kinds in order, their number and their clocks. The count of steps is the
model's choice (log 1). -/
def Obligations.RunBusCounts : Prop :=
  ∀ (s : State) (k1 k2 : Nat), GoodRun s k1 k2 →
    ∃ t u new, exec .run s = .next t ∧ SafeRun (13 + k1 + k2) t u ∧ u.trace = s.trace ++ new ∧
      new.map TxnRecord.kind = [.writeEnable, .sectorErase] ++ List.replicate (k1 + 1) .readStatus
        ++ [.quadIoRead, .writeEnable, .quadPageProgram] ++ List.replicate (k2 + 1) .readStatus
        ++ [.quadIoRead] ∧
      new.length = 8 + k1 + k2 ∧
      traceClocks new = (if s.cfg.modePhase then 556 else 552) + 16 * (k1 + k2)

/-! ## The machine as a whole -/

/-- 10_state R43: every piece of state at launch, under every configuration. The values are the spec's
own choice (its D23, D24). A byte of `MEM` is a free value, so nothing is said of it but that nothing has
been written to it. -/
def Obligations.LaunchState : Prop :=
  ∀ c : Config,
    let s := State.launch c
    s.cfg = c ∧ s.addr = 0 ∧ s.phase = .idle ∧ s.err = none ∧ s.fault = false ∧ s.pass = false ∧
    s.pollRdy = false ∧ s.opc.val = 0 ∧ s.lastStatus = 0 ∧ s.pollCnt = 0 ∧ s.runT = 0 ∧
    s.statWord = 0 ∧
    (∀ b i, (h : i < 64) → (s.buf b)[i] = none) ∧
    s.ks = .uninit ∧ s.aes = none ∧ s.trace = [] ∧ s.log = [] ∧
    s.dev.mem = [] ∧ (∀ x, s.flashByte x = Config.memByte 0 x) ∧ s.dev.wel = false ∧ s.dev.busy = false

/-- The invariant holds at launch under every configuration, and so at `State.reset`. -/
def Obligations.InvAtLaunch : Prop :=
  (∀ c : Config, (State.launch c).Inv) ∧ State.reset.Inv

/-- Every step keeps the invariant, from every state that meets it: the array's canonical form and its
bounds, error code and fault indicator exactly in a halted core, no timeout without a bound, an idle
engine between calls, a RUN that still has a command, a POLL within its bound, a pass only with the
completed program. -/
def Obligations.InvStep : Prop :=
  ∀ s t : State, s.Inv → step s = .next t → t.Inv

/-- 10_state R25: the fields of the `STAT` word, its reserved bits, and the values that are never
held. -/
def Obligations.StatWordFields : Prop :=
  ∀ s : State,
    (s.statWord.extractLsb' 0 2).toNat =
      (match s.phase with | .idle => 0 | .running _ => 1 | .halted => 2) ∧
    s.statWord.extractLsb' 2 2 = 0 ∧
    (s.statWord.extractLsb' 4 4).toNat =
      (match s.err with
        | none => 0
        | some .busTransactionError => 1
        | some .deviceBusyTimeout => 2
        | some .eraseVerifyMismatch => 3
        | some .programReadbackMismatch => 4
        | some .cipherEngineError => 5) ∧
    s.statWord.getLsbD 8 = s.fault ∧ s.statWord.getLsbD 9 = s.pass ∧
    s.statWord.getLsbD 10 = s.pollRdy ∧ s.statWord.getLsbD 11 = false ∧
    (s.statWord.extractLsb' 12 4).toNat = s.opc.val ∧
    s.statWord.extractLsb' 16 8 = s.lastStatus ∧
    s.statWord.extractLsb' 24 8 = 0

/-- 60_exceptions R302, R304: a step that halts the core sets the code, the indicator and the phase and
logs the failure, in that one step; `OPC` keeps its value; `PASS` is 0 if the step is inside RUN and keeps
its value otherwise. `Halted` is absorbing: whatever the host still wants, a halted core without a frame
on the bus stays as it is (that a step then answers the same state is log 3). -/
def Obligations.HaltingStep : Prop :=
  (∀ (s : State) (e : CoreError), s.raise e =
    { s with err := some e, fault := true, phase := .halted, log := s.log ++ [.fail e] }) ∧
  (∀ s t : State, s.Inv → s.frame = none → s.phase ≠ .halted → step s = .next t → t.phase = .halted →
    (∃ e, t.err = some e ∧ t.log = s.log ++ [.fail e]) ∧ t.fault = true ∧ t.opc = s.opc ∧
    (s.phase.inRun = true → t.pass = false) ∧ (s.phase.inRun = false → t.pass = s.pass)) ∧
  (∀ (s : State) (n : Nat), s.phase = .halted → s.frame = none → SafeRun n s s)

/-- 10_state R27, R28: in every state a step reaches, `ERR` is 0 exactly while the core is Idle or
Running and `FAULT` is on exactly when it is Halted; once written, neither changes. -/
def Obligations.ErrorIsWrittenOnce : Prop :=
  ∀ s t : State, s.Inv → step s = .next t →
    (errCode t.err = 0 ↔ t.phase ≠ .halted) ∧ (t.fault = true ↔ t.phase = .halted) ∧
    (s.err ≠ none → t.err = s.err) ∧ (s.fault = true → t.fault = true) ∧
    (s.phase ≠ .halted → t.phase = .halted → s.err = none ∧ s.fault = false)

/-- 20_memory R69, R74, R76, R77: unless a transaction fails, a step changes a byte of the array only with
the latch set and the device idle, and leaves the latch clear and the device busy; and only a Read-Status
ends a busy period. -/
def Obligations.OnlyTheLatchOpensTheArray : Prop :=
  ∀ s t : State, s.dev.mem.wf s.dev.base = true → s.okAt 0 = true → step s = .next t →
    (∀ x, t.flashByte x ≠ s.flashByte x →
      s.dev.wel = true ∧ s.dev.busy = false ∧ t.dev.wel = false ∧ t.dev.busy = true) ∧
    (s.dev.busy = true → t.dev.busy = false →
      ∃ r, t.trace = s.trace ++ [r] ∧ r.kind = .readStatus ∧ s.wipAt 0 = false)

/-- 10_state R21, R24, R38: through any number of steps the configuration stays, the trace and the log
only grow, and `ADDR` has only values the host had written or still had to write. -/
def Obligations.RunsKeepConfigurationAndHistory : Prop :=
  ∀ (n : Nat) (s t : State), SafeRun n s t →
    t.cfg = s.cfg ∧ s.trace <+: t.trace ∧ s.log <+: t.log ∧
    (t.addr = s.addr ∨ HostAction.writeAddr t.addr ∈ s.inbox)
end

