-- ==== Sys2Proof/Laws/State.lean ====
section
/-! SUPPORT. One lemma for each field of State under each named update of a state, true by rfl, so that
no later proof unfolds a record update. -/

namespace Sys2Proof.Machine

variable (s : State)

/-! ## `State.emit` -/

@[simp] theorem State.emit_cfg (e : LogEvent) : (s.emit e).cfg = s.cfg := rfl
@[simp] theorem State.emit_addr (e : LogEvent) : (s.emit e).addr = s.addr := rfl
@[simp] theorem State.emit_phase (e : LogEvent) : (s.emit e).phase = s.phase := rfl
@[simp] theorem State.emit_err (e : LogEvent) : (s.emit e).err = s.err := rfl
@[simp] theorem State.emit_fault (e : LogEvent) : (s.emit e).fault = s.fault := rfl
@[simp] theorem State.emit_pass (e : LogEvent) : (s.emit e).pass = s.pass := rfl
@[simp] theorem State.emit_pollRdy (e : LogEvent) : (s.emit e).pollRdy = s.pollRdy := rfl
@[simp] theorem State.emit_opc (e : LogEvent) : (s.emit e).opc = s.opc := rfl
@[simp] theorem State.emit_lastStatus (e : LogEvent) : (s.emit e).lastStatus = s.lastStatus := rfl
@[simp] theorem State.emit_pollCnt (e : LogEvent) : (s.emit e).pollCnt = s.pollCnt := rfl
@[simp] theorem State.emit_runT (e : LogEvent) : (s.emit e).runT = s.runT := rfl
@[simp] theorem State.emit_bufs (e : LogEvent) : (s.emit e).bufs = s.bufs := rfl
@[simp] theorem State.emit_ks (e : LogEvent) : (s.emit e).ks = s.ks := rfl
@[simp] theorem State.emit_aes (e : LogEvent) : (s.emit e).aes = s.aes := rfl
@[simp] theorem State.emit_trace (e : LogEvent) : (s.emit e).trace = s.trace := rfl
@[simp] theorem State.emit_log (e : LogEvent) : (s.emit e).log = s.log ++ [e] := rfl
@[simp] theorem State.emit_dev (e : LogEvent) : (s.emit e).dev = s.dev := rfl
@[simp] theorem State.emit_inbox (e : LogEvent) : (s.emit e).inbox = s.inbox := rfl
@[simp] theorem State.emit_frame (e : LogEvent) : (s.emit e).frame = s.frame := rfl
@[simp] theorem State.emit_okDraws (e : LogEvent) : (s.emit e).okDraws = s.okDraws := rfl
@[simp] theorem State.emit_engineDraws (e : LogEvent) : (s.emit e).engineDraws = s.engineDraws := rfl
@[simp] theorem State.emit_hiDraws (e : LogEvent) : (s.emit e).hiDraws = s.hiDraws := rfl
@[simp] theorem State.emit_wipDraws (e : LogEvent) : (s.emit e).wipDraws = s.wipDraws := rfl

/-! ## `State.record` -/

@[simp] theorem State.record_cfg (r : TxnRecord) : (s.record r).cfg = s.cfg := rfl
@[simp] theorem State.record_addr (r : TxnRecord) : (s.record r).addr = s.addr := rfl
@[simp] theorem State.record_phase (r : TxnRecord) : (s.record r).phase = s.phase := rfl
@[simp] theorem State.record_err (r : TxnRecord) : (s.record r).err = s.err := rfl
@[simp] theorem State.record_fault (r : TxnRecord) : (s.record r).fault = s.fault := rfl
@[simp] theorem State.record_pass (r : TxnRecord) : (s.record r).pass = s.pass := rfl
@[simp] theorem State.record_pollRdy (r : TxnRecord) : (s.record r).pollRdy = s.pollRdy := rfl
@[simp] theorem State.record_opc (r : TxnRecord) : (s.record r).opc = s.opc := rfl
@[simp] theorem State.record_lastStatus (r : TxnRecord) : (s.record r).lastStatus = s.lastStatus := rfl
@[simp] theorem State.record_pollCnt (r : TxnRecord) : (s.record r).pollCnt = s.pollCnt := rfl
@[simp] theorem State.record_runT (r : TxnRecord) : (s.record r).runT = s.runT := rfl
@[simp] theorem State.record_bufs (r : TxnRecord) : (s.record r).bufs = s.bufs := rfl
@[simp] theorem State.record_ks (r : TxnRecord) : (s.record r).ks = s.ks := rfl
@[simp] theorem State.record_aes (r : TxnRecord) : (s.record r).aes = s.aes := rfl
@[simp] theorem State.record_trace (r : TxnRecord) : (s.record r).trace = s.trace ++ [r] := rfl
@[simp] theorem State.record_log (r : TxnRecord) : (s.record r).log = s.log := rfl
@[simp] theorem State.record_dev (r : TxnRecord) : (s.record r).dev = s.dev := rfl
@[simp] theorem State.record_inbox (r : TxnRecord) : (s.record r).inbox = s.inbox := rfl
@[simp] theorem State.record_frame (r : TxnRecord) : (s.record r).frame = s.frame := rfl
@[simp] theorem State.record_okDraws (r : TxnRecord) : (s.record r).okDraws = s.okDraws := rfl
@[simp] theorem State.record_engineDraws (r : TxnRecord) : (s.record r).engineDraws = s.engineDraws := rfl
@[simp] theorem State.record_hiDraws (r : TxnRecord) : (s.record r).hiDraws = s.hiDraws := rfl
@[simp] theorem State.record_wipDraws (r : TxnRecord) : (s.record r).wipDraws = s.wipDraws := rfl

/-! ## `State.raise` -/

@[simp] theorem State.raise_cfg (e : CoreError) : (s.raise e).cfg = s.cfg := rfl
@[simp] theorem State.raise_addr (e : CoreError) : (s.raise e).addr = s.addr := rfl
@[simp] theorem State.raise_phase (e : CoreError) : (s.raise e).phase = Phase.halted := rfl
@[simp] theorem State.raise_err (e : CoreError) : (s.raise e).err = some e := rfl
@[simp] theorem State.raise_fault (e : CoreError) : (s.raise e).fault = true := rfl
@[simp] theorem State.raise_pass (e : CoreError) : (s.raise e).pass = s.pass := rfl
@[simp] theorem State.raise_pollRdy (e : CoreError) : (s.raise e).pollRdy = s.pollRdy := rfl
@[simp] theorem State.raise_opc (e : CoreError) : (s.raise e).opc = s.opc := rfl
@[simp] theorem State.raise_lastStatus (e : CoreError) : (s.raise e).lastStatus = s.lastStatus := rfl
@[simp] theorem State.raise_pollCnt (e : CoreError) : (s.raise e).pollCnt = s.pollCnt := rfl
@[simp] theorem State.raise_runT (e : CoreError) : (s.raise e).runT = s.runT := rfl
@[simp] theorem State.raise_bufs (e : CoreError) : (s.raise e).bufs = s.bufs := rfl
@[simp] theorem State.raise_ks (e : CoreError) : (s.raise e).ks = s.ks := rfl
@[simp] theorem State.raise_aes (e : CoreError) : (s.raise e).aes = s.aes := rfl
@[simp] theorem State.raise_trace (e : CoreError) : (s.raise e).trace = s.trace := rfl
@[simp] theorem State.raise_log (e : CoreError) : (s.raise e).log = s.log ++ [.fail e] := rfl
@[simp] theorem State.raise_dev (e : CoreError) : (s.raise e).dev = s.dev := rfl
@[simp] theorem State.raise_inbox (e : CoreError) : (s.raise e).inbox = s.inbox := rfl
@[simp] theorem State.raise_frame (e : CoreError) : (s.raise e).frame = s.frame := rfl
@[simp] theorem State.raise_okDraws (e : CoreError) : (s.raise e).okDraws = s.okDraws := rfl
@[simp] theorem State.raise_engineDraws (e : CoreError) : (s.raise e).engineDraws = s.engineDraws := rfl
@[simp] theorem State.raise_hiDraws (e : CoreError) : (s.raise e).hiDraws = s.hiDraws := rfl
@[simp] theorem State.raise_wipDraws (e : CoreError) : (s.raise e).wipDraws = s.wipDraws := rfl

/-! ## `State.setBuf` -/

@[simp] theorem State.setBuf_cfg (b : BufId) (v : Buffer) : (s.setBuf b v).cfg = s.cfg := rfl
@[simp] theorem State.setBuf_addr (b : BufId) (v : Buffer) : (s.setBuf b v).addr = s.addr := rfl
@[simp] theorem State.setBuf_phase (b : BufId) (v : Buffer) : (s.setBuf b v).phase = s.phase := rfl
@[simp] theorem State.setBuf_err (b : BufId) (v : Buffer) : (s.setBuf b v).err = s.err := rfl
@[simp] theorem State.setBuf_fault (b : BufId) (v : Buffer) : (s.setBuf b v).fault = s.fault := rfl
@[simp] theorem State.setBuf_pass (b : BufId) (v : Buffer) : (s.setBuf b v).pass = s.pass := rfl
@[simp] theorem State.setBuf_pollRdy (b : BufId) (v : Buffer) : (s.setBuf b v).pollRdy = s.pollRdy := rfl
@[simp] theorem State.setBuf_opc (b : BufId) (v : Buffer) : (s.setBuf b v).opc = s.opc := rfl
@[simp] theorem State.setBuf_lastStatus (b : BufId) (v : Buffer) : (s.setBuf b v).lastStatus = s.lastStatus := rfl
@[simp] theorem State.setBuf_pollCnt (b : BufId) (v : Buffer) : (s.setBuf b v).pollCnt = s.pollCnt := rfl
@[simp] theorem State.setBuf_runT (b : BufId) (v : Buffer) : (s.setBuf b v).runT = s.runT := rfl
@[simp] theorem State.setBuf_bufs (b : BufId) (v : Buffer) : (s.setBuf b v).bufs = s.bufs.set b v := rfl
@[simp] theorem State.setBuf_ks (b : BufId) (v : Buffer) : (s.setBuf b v).ks = s.ks := rfl
@[simp] theorem State.setBuf_aes (b : BufId) (v : Buffer) : (s.setBuf b v).aes = s.aes := rfl
@[simp] theorem State.setBuf_trace (b : BufId) (v : Buffer) : (s.setBuf b v).trace = s.trace := rfl
@[simp] theorem State.setBuf_log (b : BufId) (v : Buffer) : (s.setBuf b v).log = s.log := rfl
@[simp] theorem State.setBuf_dev (b : BufId) (v : Buffer) : (s.setBuf b v).dev = s.dev := rfl
@[simp] theorem State.setBuf_inbox (b : BufId) (v : Buffer) : (s.setBuf b v).inbox = s.inbox := rfl
@[simp] theorem State.setBuf_frame (b : BufId) (v : Buffer) : (s.setBuf b v).frame = s.frame := rfl
@[simp] theorem State.setBuf_okDraws (b : BufId) (v : Buffer) : (s.setBuf b v).okDraws = s.okDraws := rfl
@[simp] theorem State.setBuf_engineDraws (b : BufId) (v : Buffer) : (s.setBuf b v).engineDraws = s.engineDraws := rfl
@[simp] theorem State.setBuf_hiDraws (b : BufId) (v : Buffer) : (s.setBuf b v).hiDraws = s.hiDraws := rfl
@[simp] theorem State.setBuf_wipDraws (b : BufId) (v : Buffer) : (s.setBuf b v).wipDraws = s.wipDraws := rfl

/-! ## `State.dropOk` -/

@[simp] theorem State.dropOk_cfg : (s.dropOk).cfg = s.cfg := rfl
@[simp] theorem State.dropOk_addr : (s.dropOk).addr = s.addr := rfl
@[simp] theorem State.dropOk_phase : (s.dropOk).phase = s.phase := rfl
@[simp] theorem State.dropOk_err : (s.dropOk).err = s.err := rfl
@[simp] theorem State.dropOk_fault : (s.dropOk).fault = s.fault := rfl
@[simp] theorem State.dropOk_pass : (s.dropOk).pass = s.pass := rfl
@[simp] theorem State.dropOk_pollRdy : (s.dropOk).pollRdy = s.pollRdy := rfl
@[simp] theorem State.dropOk_opc : (s.dropOk).opc = s.opc := rfl
@[simp] theorem State.dropOk_lastStatus : (s.dropOk).lastStatus = s.lastStatus := rfl
@[simp] theorem State.dropOk_pollCnt : (s.dropOk).pollCnt = s.pollCnt := rfl
@[simp] theorem State.dropOk_runT : (s.dropOk).runT = s.runT := rfl
@[simp] theorem State.dropOk_bufs : (s.dropOk).bufs = s.bufs := rfl
@[simp] theorem State.dropOk_ks : (s.dropOk).ks = s.ks := rfl
@[simp] theorem State.dropOk_aes : (s.dropOk).aes = s.aes := rfl
@[simp] theorem State.dropOk_trace : (s.dropOk).trace = s.trace := rfl
@[simp] theorem State.dropOk_log : (s.dropOk).log = s.log := rfl
@[simp] theorem State.dropOk_dev : (s.dropOk).dev = s.dev := rfl
@[simp] theorem State.dropOk_inbox : (s.dropOk).inbox = s.inbox := rfl
@[simp] theorem State.dropOk_frame : (s.dropOk).frame = s.frame := rfl
@[simp] theorem State.dropOk_okDraws : (s.dropOk).okDraws = s.okDraws.rest := rfl
@[simp] theorem State.dropOk_engineDraws : (s.dropOk).engineDraws = s.engineDraws := rfl
@[simp] theorem State.dropOk_hiDraws : (s.dropOk).hiDraws = s.hiDraws := rfl
@[simp] theorem State.dropOk_wipDraws : (s.dropOk).wipDraws = s.wipDraws := rfl

/-! ## `State.dropEngine` -/

@[simp] theorem State.dropEngine_cfg : (s.dropEngine).cfg = s.cfg := rfl
@[simp] theorem State.dropEngine_addr : (s.dropEngine).addr = s.addr := rfl
@[simp] theorem State.dropEngine_phase : (s.dropEngine).phase = s.phase := rfl
@[simp] theorem State.dropEngine_err : (s.dropEngine).err = s.err := rfl
@[simp] theorem State.dropEngine_fault : (s.dropEngine).fault = s.fault := rfl
@[simp] theorem State.dropEngine_pass : (s.dropEngine).pass = s.pass := rfl
@[simp] theorem State.dropEngine_pollRdy : (s.dropEngine).pollRdy = s.pollRdy := rfl
@[simp] theorem State.dropEngine_opc : (s.dropEngine).opc = s.opc := rfl
@[simp] theorem State.dropEngine_lastStatus : (s.dropEngine).lastStatus = s.lastStatus := rfl
@[simp] theorem State.dropEngine_pollCnt : (s.dropEngine).pollCnt = s.pollCnt := rfl
@[simp] theorem State.dropEngine_runT : (s.dropEngine).runT = s.runT := rfl
@[simp] theorem State.dropEngine_bufs : (s.dropEngine).bufs = s.bufs := rfl
@[simp] theorem State.dropEngine_ks : (s.dropEngine).ks = s.ks := rfl
@[simp] theorem State.dropEngine_aes : (s.dropEngine).aes = s.aes := rfl
@[simp] theorem State.dropEngine_trace : (s.dropEngine).trace = s.trace := rfl
@[simp] theorem State.dropEngine_log : (s.dropEngine).log = s.log := rfl
@[simp] theorem State.dropEngine_dev : (s.dropEngine).dev = s.dev := rfl
@[simp] theorem State.dropEngine_inbox : (s.dropEngine).inbox = s.inbox := rfl
@[simp] theorem State.dropEngine_frame : (s.dropEngine).frame = s.frame := rfl
@[simp] theorem State.dropEngine_okDraws : (s.dropEngine).okDraws = s.okDraws := rfl
@[simp] theorem State.dropEngine_engineDraws : (s.dropEngine).engineDraws = s.engineDraws.rest := rfl
@[simp] theorem State.dropEngine_hiDraws : (s.dropEngine).hiDraws = s.hiDraws := rfl
@[simp] theorem State.dropEngine_wipDraws : (s.dropEngine).wipDraws = s.wipDraws := rfl

/-! ## `State.dropHi` -/

@[simp] theorem State.dropHi_cfg : (s.dropHi).cfg = s.cfg := rfl
@[simp] theorem State.dropHi_addr : (s.dropHi).addr = s.addr := rfl
@[simp] theorem State.dropHi_phase : (s.dropHi).phase = s.phase := rfl
@[simp] theorem State.dropHi_err : (s.dropHi).err = s.err := rfl
@[simp] theorem State.dropHi_fault : (s.dropHi).fault = s.fault := rfl
@[simp] theorem State.dropHi_pass : (s.dropHi).pass = s.pass := rfl
@[simp] theorem State.dropHi_pollRdy : (s.dropHi).pollRdy = s.pollRdy := rfl
@[simp] theorem State.dropHi_opc : (s.dropHi).opc = s.opc := rfl
@[simp] theorem State.dropHi_lastStatus : (s.dropHi).lastStatus = s.lastStatus := rfl
@[simp] theorem State.dropHi_pollCnt : (s.dropHi).pollCnt = s.pollCnt := rfl
@[simp] theorem State.dropHi_runT : (s.dropHi).runT = s.runT := rfl
@[simp] theorem State.dropHi_bufs : (s.dropHi).bufs = s.bufs := rfl
@[simp] theorem State.dropHi_ks : (s.dropHi).ks = s.ks := rfl
@[simp] theorem State.dropHi_aes : (s.dropHi).aes = s.aes := rfl
@[simp] theorem State.dropHi_trace : (s.dropHi).trace = s.trace := rfl
@[simp] theorem State.dropHi_log : (s.dropHi).log = s.log := rfl
@[simp] theorem State.dropHi_dev : (s.dropHi).dev = s.dev := rfl
@[simp] theorem State.dropHi_inbox : (s.dropHi).inbox = s.inbox := rfl
@[simp] theorem State.dropHi_frame : (s.dropHi).frame = s.frame := rfl
@[simp] theorem State.dropHi_okDraws : (s.dropHi).okDraws = s.okDraws := rfl
@[simp] theorem State.dropHi_engineDraws : (s.dropHi).engineDraws = s.engineDraws := rfl
@[simp] theorem State.dropHi_hiDraws : (s.dropHi).hiDraws = s.hiDraws.rest := rfl
@[simp] theorem State.dropHi_wipDraws : (s.dropHi).wipDraws = s.wipDraws := rfl

/-! ## `State.dropWip` -/

@[simp] theorem State.dropWip_cfg : (s.dropWip).cfg = s.cfg := rfl
@[simp] theorem State.dropWip_addr : (s.dropWip).addr = s.addr := rfl
@[simp] theorem State.dropWip_phase : (s.dropWip).phase = s.phase := rfl
@[simp] theorem State.dropWip_err : (s.dropWip).err = s.err := rfl
@[simp] theorem State.dropWip_fault : (s.dropWip).fault = s.fault := rfl
@[simp] theorem State.dropWip_pass : (s.dropWip).pass = s.pass := rfl
@[simp] theorem State.dropWip_pollRdy : (s.dropWip).pollRdy = s.pollRdy := rfl
@[simp] theorem State.dropWip_opc : (s.dropWip).opc = s.opc := rfl
@[simp] theorem State.dropWip_lastStatus : (s.dropWip).lastStatus = s.lastStatus := rfl
@[simp] theorem State.dropWip_pollCnt : (s.dropWip).pollCnt = s.pollCnt := rfl
@[simp] theorem State.dropWip_runT : (s.dropWip).runT = s.runT := rfl
@[simp] theorem State.dropWip_bufs : (s.dropWip).bufs = s.bufs := rfl
@[simp] theorem State.dropWip_ks : (s.dropWip).ks = s.ks := rfl
@[simp] theorem State.dropWip_aes : (s.dropWip).aes = s.aes := rfl
@[simp] theorem State.dropWip_trace : (s.dropWip).trace = s.trace := rfl
@[simp] theorem State.dropWip_log : (s.dropWip).log = s.log := rfl
@[simp] theorem State.dropWip_dev : (s.dropWip).dev = s.dev := rfl
@[simp] theorem State.dropWip_inbox : (s.dropWip).inbox = s.inbox := rfl
@[simp] theorem State.dropWip_frame : (s.dropWip).frame = s.frame := rfl
@[simp] theorem State.dropWip_okDraws : (s.dropWip).okDraws = s.okDraws := rfl
@[simp] theorem State.dropWip_engineDraws : (s.dropWip).engineDraws = s.engineDraws := rfl
@[simp] theorem State.dropWip_hiDraws : (s.dropWip).hiDraws = s.hiDraws := rfl
@[simp] theorem State.dropWip_wipDraws : (s.dropWip).wipDraws = s.wipDraws.rest := rfl

/-! ## `State.engineInit` -/

@[simp] theorem State.engineInit_cfg : (s.engineInit).cfg = s.cfg := rfl
@[simp] theorem State.engineInit_addr : (s.engineInit).addr = s.addr := rfl
@[simp] theorem State.engineInit_phase : (s.engineInit).phase = s.phase := rfl
@[simp] theorem State.engineInit_err : (s.engineInit).err = s.err := rfl
@[simp] theorem State.engineInit_fault : (s.engineInit).fault = s.fault := rfl
@[simp] theorem State.engineInit_pass : (s.engineInit).pass = s.pass := rfl
@[simp] theorem State.engineInit_pollRdy : (s.engineInit).pollRdy = s.pollRdy := rfl
@[simp] theorem State.engineInit_opc : (s.engineInit).opc = s.opc := rfl
@[simp] theorem State.engineInit_lastStatus : (s.engineInit).lastStatus = s.lastStatus := rfl
@[simp] theorem State.engineInit_pollCnt : (s.engineInit).pollCnt = s.pollCnt := rfl
@[simp] theorem State.engineInit_runT : (s.engineInit).runT = s.runT := rfl
@[simp] theorem State.engineInit_bufs : (s.engineInit).bufs = s.bufs := rfl
@[simp] theorem State.engineInit_ks : (s.engineInit).ks = KeySchedule.ready (keyExpansion s.cfg.aesKey) := rfl
@[simp] theorem State.engineInit_aes : (s.engineInit).aes = s.aes := rfl
@[simp] theorem State.engineInit_trace : (s.engineInit).trace = s.trace := rfl
@[simp] theorem State.engineInit_log : (s.engineInit).log = s.log := rfl
@[simp] theorem State.engineInit_dev : (s.engineInit).dev = s.dev := rfl
@[simp] theorem State.engineInit_inbox : (s.engineInit).inbox = s.inbox := rfl
@[simp] theorem State.engineInit_frame : (s.engineInit).frame = s.frame := rfl
@[simp] theorem State.engineInit_okDraws : (s.engineInit).okDraws = s.okDraws := rfl
@[simp] theorem State.engineInit_engineDraws : (s.engineInit).engineDraws = s.engineDraws := rfl
@[simp] theorem State.engineInit_hiDraws : (s.engineInit).hiDraws = s.hiDraws := rfl
@[simp] theorem State.engineInit_wipDraws : (s.engineInit).wipDraws = s.wipDraws := rfl

/-! ## `State.engineFinal` -/

@[simp] theorem State.engineFinal_cfg : (s.engineFinal).cfg = s.cfg := rfl
@[simp] theorem State.engineFinal_addr : (s.engineFinal).addr = s.addr := rfl
@[simp] theorem State.engineFinal_phase : (s.engineFinal).phase = s.phase := rfl
@[simp] theorem State.engineFinal_err : (s.engineFinal).err = s.err := rfl
@[simp] theorem State.engineFinal_fault : (s.engineFinal).fault = s.fault := rfl
@[simp] theorem State.engineFinal_pass : (s.engineFinal).pass = s.pass := rfl
@[simp] theorem State.engineFinal_pollRdy : (s.engineFinal).pollRdy = s.pollRdy := rfl
@[simp] theorem State.engineFinal_opc : (s.engineFinal).opc = s.opc := rfl
@[simp] theorem State.engineFinal_lastStatus : (s.engineFinal).lastStatus = s.lastStatus := rfl
@[simp] theorem State.engineFinal_pollCnt : (s.engineFinal).pollCnt = s.pollCnt := rfl
@[simp] theorem State.engineFinal_runT : (s.engineFinal).runT = s.runT := rfl
@[simp] theorem State.engineFinal_bufs : (s.engineFinal).bufs = s.bufs := rfl
@[simp] theorem State.engineFinal_ks : (s.engineFinal).ks = KeySchedule.uninit := rfl
@[simp] theorem State.engineFinal_aes : (s.engineFinal).aes = none := rfl
@[simp] theorem State.engineFinal_trace : (s.engineFinal).trace = s.trace := rfl
@[simp] theorem State.engineFinal_log : (s.engineFinal).log = s.log := rfl
@[simp] theorem State.engineFinal_dev : (s.engineFinal).dev = s.dev := rfl
@[simp] theorem State.engineFinal_inbox : (s.engineFinal).inbox = s.inbox := rfl
@[simp] theorem State.engineFinal_frame : (s.engineFinal).frame = s.frame := rfl
@[simp] theorem State.engineFinal_okDraws : (s.engineFinal).okDraws = s.okDraws := rfl
@[simp] theorem State.engineFinal_engineDraws : (s.engineFinal).engineDraws = s.engineDraws := rfl
@[simp] theorem State.engineFinal_hiDraws : (s.engineFinal).hiDraws = s.hiDraws := rfl
@[simp] theorem State.engineFinal_wipDraws : (s.engineFinal).wipDraws = s.wipDraws := rfl

/-! ## `State.pollBegin` -/

@[simp] theorem State.pollBegin_cfg : (s.pollBegin).cfg = s.cfg := rfl
@[simp] theorem State.pollBegin_addr : (s.pollBegin).addr = s.addr := rfl
@[simp] theorem State.pollBegin_phase : (s.pollBegin).phase = pollingPhase s.phase := rfl
@[simp] theorem State.pollBegin_err : (s.pollBegin).err = s.err := rfl
@[simp] theorem State.pollBegin_fault : (s.pollBegin).fault = s.fault := rfl
@[simp] theorem State.pollBegin_pass : (s.pollBegin).pass = s.pass := rfl
@[simp] theorem State.pollBegin_pollRdy : (s.pollBegin).pollRdy = false := rfl
@[simp] theorem State.pollBegin_opc : (s.pollBegin).opc = s.opc := rfl
@[simp] theorem State.pollBegin_lastStatus : (s.pollBegin).lastStatus = s.lastStatus := rfl
@[simp] theorem State.pollBegin_pollCnt : (s.pollBegin).pollCnt = 0 := rfl
@[simp] theorem State.pollBegin_runT : (s.pollBegin).runT = s.runT := rfl
@[simp] theorem State.pollBegin_bufs : (s.pollBegin).bufs = s.bufs := rfl
@[simp] theorem State.pollBegin_ks : (s.pollBegin).ks = s.ks := rfl
@[simp] theorem State.pollBegin_aes : (s.pollBegin).aes = s.aes := rfl
@[simp] theorem State.pollBegin_trace : (s.pollBegin).trace = s.trace := rfl
@[simp] theorem State.pollBegin_log : (s.pollBegin).log = s.log := rfl
@[simp] theorem State.pollBegin_dev : (s.pollBegin).dev = s.dev := rfl
@[simp] theorem State.pollBegin_inbox : (s.pollBegin).inbox = s.inbox := rfl
@[simp] theorem State.pollBegin_frame : (s.pollBegin).frame = s.frame := rfl
@[simp] theorem State.pollBegin_okDraws : (s.pollBegin).okDraws = s.okDraws := rfl
@[simp] theorem State.pollBegin_engineDraws : (s.pollBegin).engineDraws = s.engineDraws := rfl
@[simp] theorem State.pollBegin_hiDraws : (s.pollBegin).hiDraws = s.hiDraws := rfl
@[simp] theorem State.pollBegin_wipDraws : (s.pollBegin).wipDraws = s.wipDraws := rfl

/-! ## `State.pollReady` -/

@[simp] theorem State.pollReady_cfg : (s.pollReady).cfg = s.cfg := rfl
@[simp] theorem State.pollReady_addr : (s.pollReady).addr = s.addr := rfl
@[simp] theorem State.pollReady_phase : (s.pollReady).phase = polledPhase s.phase := rfl
@[simp] theorem State.pollReady_err : (s.pollReady).err = s.err := rfl
@[simp] theorem State.pollReady_fault : (s.pollReady).fault = s.fault := rfl
@[simp] theorem State.pollReady_pass : (s.pollReady).pass = s.pass := rfl
@[simp] theorem State.pollReady_pollRdy : (s.pollReady).pollRdy = true := rfl
@[simp] theorem State.pollReady_opc : (s.pollReady).opc = s.opc := rfl
@[simp] theorem State.pollReady_lastStatus : (s.pollReady).lastStatus = s.lastStatus := rfl
@[simp] theorem State.pollReady_pollCnt : (s.pollReady).pollCnt = s.pollCnt := rfl
@[simp] theorem State.pollReady_runT : (s.pollReady).runT = s.runT := rfl
@[simp] theorem State.pollReady_bufs : (s.pollReady).bufs = s.bufs := rfl
@[simp] theorem State.pollReady_ks : (s.pollReady).ks = s.ks := rfl
@[simp] theorem State.pollReady_aes : (s.pollReady).aes = s.aes := rfl
@[simp] theorem State.pollReady_trace : (s.pollReady).trace = s.trace := rfl
@[simp] theorem State.pollReady_log : (s.pollReady).log = s.log := rfl
@[simp] theorem State.pollReady_dev : (s.pollReady).dev = s.dev := rfl
@[simp] theorem State.pollReady_inbox : (s.pollReady).inbox = s.inbox := rfl
@[simp] theorem State.pollReady_frame : (s.pollReady).frame = s.frame := rfl
@[simp] theorem State.pollReady_okDraws : (s.pollReady).okDraws = s.okDraws := rfl
@[simp] theorem State.pollReady_engineDraws : (s.pollReady).engineDraws = s.engineDraws := rfl
@[simp] theorem State.pollReady_hiDraws : (s.pollReady).hiDraws = s.hiDraws := rfl
@[simp] theorem State.pollReady_wipDraws : (s.pollReady).wipDraws = s.wipDraws := rfl

/-! ## `State.runPass` -/

@[simp] theorem State.runPass_cfg : (s.runPass).cfg = s.cfg := rfl
@[simp] theorem State.runPass_addr : (s.runPass).addr = s.addr := rfl
@[simp] theorem State.runPass_phase : (s.runPass).phase = Phase.idle := rfl
@[simp] theorem State.runPass_err : (s.runPass).err = s.err := rfl
@[simp] theorem State.runPass_fault : (s.runPass).fault = s.fault := rfl
@[simp] theorem State.runPass_pass : (s.runPass).pass = true := rfl
@[simp] theorem State.runPass_pollRdy : (s.runPass).pollRdy = s.pollRdy := rfl
@[simp] theorem State.runPass_opc : (s.runPass).opc = s.opc := rfl
@[simp] theorem State.runPass_lastStatus : (s.runPass).lastStatus = s.lastStatus := rfl
@[simp] theorem State.runPass_pollCnt : (s.runPass).pollCnt = s.pollCnt := rfl
@[simp] theorem State.runPass_runT : (s.runPass).runT = s.runT := rfl
@[simp] theorem State.runPass_bufs : (s.runPass).bufs = s.bufs := rfl
@[simp] theorem State.runPass_ks : (s.runPass).ks = s.ks := rfl
@[simp] theorem State.runPass_aes : (s.runPass).aes = s.aes := rfl
@[simp] theorem State.runPass_trace : (s.runPass).trace = s.trace := rfl
@[simp] theorem State.runPass_log : (s.runPass).log = s.log ++ [.pass] := rfl
@[simp] theorem State.runPass_dev : (s.runPass).dev = s.dev := rfl
@[simp] theorem State.runPass_inbox : (s.runPass).inbox = s.inbox := rfl
@[simp] theorem State.runPass_frame : (s.runPass).frame = s.frame := rfl
@[simp] theorem State.runPass_okDraws : (s.runPass).okDraws = s.okDraws := rfl
@[simp] theorem State.runPass_engineDraws : (s.runPass).engineDraws = s.engineDraws := rfl
@[simp] theorem State.runPass_hiDraws : (s.runPass).hiDraws = s.hiDraws := rfl
@[simp] theorem State.runPass_wipDraws : (s.runPass).wipDraws = s.wipDraws := rfl

/-! ## `bufWrite` -/

@[simp] theorem bufWrite_cfg (b : BufId) (off : Nat) (v : List Byte) : (bufWrite b off v s).cfg = s.cfg := rfl
@[simp] theorem bufWrite_addr (b : BufId) (off : Nat) (v : List Byte) : (bufWrite b off v s).addr = s.addr := rfl
@[simp] theorem bufWrite_phase (b : BufId) (off : Nat) (v : List Byte) : (bufWrite b off v s).phase = s.phase := rfl
@[simp] theorem bufWrite_err (b : BufId) (off : Nat) (v : List Byte) : (bufWrite b off v s).err = s.err := rfl
@[simp] theorem bufWrite_fault (b : BufId) (off : Nat) (v : List Byte) : (bufWrite b off v s).fault = s.fault := rfl
@[simp] theorem bufWrite_pass (b : BufId) (off : Nat) (v : List Byte) : (bufWrite b off v s).pass = s.pass := rfl
@[simp] theorem bufWrite_pollRdy (b : BufId) (off : Nat) (v : List Byte) : (bufWrite b off v s).pollRdy = s.pollRdy := rfl
@[simp] theorem bufWrite_opc (b : BufId) (off : Nat) (v : List Byte) : (bufWrite b off v s).opc = s.opc := rfl
@[simp] theorem bufWrite_lastStatus (b : BufId) (off : Nat) (v : List Byte) : (bufWrite b off v s).lastStatus = s.lastStatus := rfl
@[simp] theorem bufWrite_pollCnt (b : BufId) (off : Nat) (v : List Byte) : (bufWrite b off v s).pollCnt = s.pollCnt := rfl
@[simp] theorem bufWrite_runT (b : BufId) (off : Nat) (v : List Byte) : (bufWrite b off v s).runT = s.runT := rfl
@[simp] theorem bufWrite_bufs (b : BufId) (off : Nat) (v : List Byte) : (bufWrite b off v s).bufs = s.bufs.set b ((s.buf b).put off v) := rfl
@[simp] theorem bufWrite_ks (b : BufId) (off : Nat) (v : List Byte) : (bufWrite b off v s).ks = s.ks := rfl
@[simp] theorem bufWrite_aes (b : BufId) (off : Nat) (v : List Byte) : (bufWrite b off v s).aes = s.aes := rfl
@[simp] theorem bufWrite_trace (b : BufId) (off : Nat) (v : List Byte) : (bufWrite b off v s).trace = s.trace := rfl
@[simp] theorem bufWrite_log (b : BufId) (off : Nat) (v : List Byte) : (bufWrite b off v s).log = s.log := rfl
@[simp] theorem bufWrite_dev (b : BufId) (off : Nat) (v : List Byte) : (bufWrite b off v s).dev = s.dev := rfl
@[simp] theorem bufWrite_inbox (b : BufId) (off : Nat) (v : List Byte) : (bufWrite b off v s).inbox = s.inbox := rfl
@[simp] theorem bufWrite_frame (b : BufId) (off : Nat) (v : List Byte) : (bufWrite b off v s).frame = s.frame := rfl
@[simp] theorem bufWrite_okDraws (b : BufId) (off : Nat) (v : List Byte) : (bufWrite b off v s).okDraws = s.okDraws := rfl
@[simp] theorem bufWrite_engineDraws (b : BufId) (off : Nat) (v : List Byte) : (bufWrite b off v s).engineDraws = s.engineDraws := rfl
@[simp] theorem bufWrite_hiDraws (b : BufId) (off : Nat) (v : List Byte) : (bufWrite b off v s).hiDraws = s.hiDraws := rfl
@[simp] theorem bufWrite_wipDraws (b : BufId) (off : Nat) (v : List Byte) : (bufWrite b off v s).wipDraws = s.wipDraws := rfl

/-! ## `bufUndef` -/

@[simp] theorem bufUndef_cfg (b : BufId) (off n : Nat) : (bufUndef b off n s).cfg = s.cfg := rfl
@[simp] theorem bufUndef_addr (b : BufId) (off n : Nat) : (bufUndef b off n s).addr = s.addr := rfl
@[simp] theorem bufUndef_phase (b : BufId) (off n : Nat) : (bufUndef b off n s).phase = s.phase := rfl
@[simp] theorem bufUndef_err (b : BufId) (off n : Nat) : (bufUndef b off n s).err = s.err := rfl
@[simp] theorem bufUndef_fault (b : BufId) (off n : Nat) : (bufUndef b off n s).fault = s.fault := rfl
@[simp] theorem bufUndef_pass (b : BufId) (off n : Nat) : (bufUndef b off n s).pass = s.pass := rfl
@[simp] theorem bufUndef_pollRdy (b : BufId) (off n : Nat) : (bufUndef b off n s).pollRdy = s.pollRdy := rfl
@[simp] theorem bufUndef_opc (b : BufId) (off n : Nat) : (bufUndef b off n s).opc = s.opc := rfl
@[simp] theorem bufUndef_lastStatus (b : BufId) (off n : Nat) : (bufUndef b off n s).lastStatus = s.lastStatus := rfl
@[simp] theorem bufUndef_pollCnt (b : BufId) (off n : Nat) : (bufUndef b off n s).pollCnt = s.pollCnt := rfl
@[simp] theorem bufUndef_runT (b : BufId) (off n : Nat) : (bufUndef b off n s).runT = s.runT := rfl
@[simp] theorem bufUndef_bufs (b : BufId) (off n : Nat) : (bufUndef b off n s).bufs = s.bufs.set b ((s.buf b).undef off n) := rfl
@[simp] theorem bufUndef_ks (b : BufId) (off n : Nat) : (bufUndef b off n s).ks = s.ks := rfl
@[simp] theorem bufUndef_aes (b : BufId) (off n : Nat) : (bufUndef b off n s).aes = s.aes := rfl
@[simp] theorem bufUndef_trace (b : BufId) (off n : Nat) : (bufUndef b off n s).trace = s.trace := rfl
@[simp] theorem bufUndef_log (b : BufId) (off n : Nat) : (bufUndef b off n s).log = s.log := rfl
@[simp] theorem bufUndef_dev (b : BufId) (off n : Nat) : (bufUndef b off n s).dev = s.dev := rfl
@[simp] theorem bufUndef_inbox (b : BufId) (off n : Nat) : (bufUndef b off n s).inbox = s.inbox := rfl
@[simp] theorem bufUndef_frame (b : BufId) (off n : Nat) : (bufUndef b off n s).frame = s.frame := rfl
@[simp] theorem bufUndef_okDraws (b : BufId) (off n : Nat) : (bufUndef b off n s).okDraws = s.okDraws := rfl
@[simp] theorem bufUndef_engineDraws (b : BufId) (off n : Nat) : (bufUndef b off n s).engineDraws = s.engineDraws := rfl
@[simp] theorem bufUndef_hiDraws (b : BufId) (off n : Nat) : (bufUndef b off n s).hiDraws = s.hiDraws := rfl
@[simp] theorem bufUndef_wipDraws (b : BufId) (off n : Nat) : (bufUndef b off n s).wipDraws = s.wipDraws := rfl

end Sys2Proof.Machine
end

