-- ==== Sys2Proof/Laws/Buffers.lean ====
section
/-! SUPPORT. The laws of the buffers: which cell a put or an undef leaves, and when bytes can be read. -/

namespace Sys2Proof.Machine

@[simp] theorem Buffers.get_set_same (bs : Buffers) (b : BufId) (v : Buffer) :
    (bs.set b v).get b = v := by
  cases b <;> rfl

theorem Buffers.get_set_other (bs : Buffers) {b c : BufId} (v : Buffer) (h : c ≠ b) :
    (bs.set b v).get c = bs.get c := by
  cases b <;> cases c <;> first | rfl | exact absurd rfl h

@[simp] theorem State.buf_setBuf_same (s : State) (b : BufId) (v : Buffer) : (s.setBuf b v).buf b = v :=
  Buffers.get_set_same _ _ _

theorem State.buf_setBuf_other (s : State) {b c : BufId} (v : Buffer) (h : c ≠ b) :
    (s.setBuf b v).buf c = s.buf c :=
  Buffers.get_set_other _ _ h

/-- A cell of a buffer after a put: the put byte inside, the old cell outside. -/
theorem Buffer.getElem_put (buf : Buffer) (off : Nat) (v : List Byte) (i : Nat) (h : i < 64) :
    (buf.put off v)[i] = if off ≤ i ∧ i < off + v.length then v[i - off]? else buf[i] := by
  simp [Buffer.put]

/-- A cell of a buffer after an undef: unwritten inside, the old cell outside. -/
theorem Buffer.getElem_undef (buf : Buffer) (off n : Nat) (i : Nat) (h : i < 64) :
    (buf.undef off n)[i] = if off ≤ i ∧ i < off + n then none else buf[i] := by
  simp [Buffer.undef]

/-- Cells can be read exactly when each holds a byte. -/
theorem readCells_eq_some {cells : List (Option Byte)} {v : List Byte} :
    readCells cells = some v ↔ cells = v.map some := by
  induction cells generalizing v with
  | nil => cases v <;> simp [readCells]
  | cons c cells ih =>
    cases c with
    | none => cases v <;> simp [readCells]
    | some x =>
      cases hr : readCells cells with
      | none =>
        cases v with
        | nil => simp [readCells, hr]
        | cons y v =>
          have : ¬ cells = v.map some := fun h => by simp [ih.2 h] at hr
          simp [readCells, hr, this]
      | some w =>
        cases v with
        | nil => simp [readCells, hr]
        | cons y v =>
          have hw := ih.1 hr
          simp only [readCells, hr, Option.some.injEq, List.cons.injEq, List.map_cons]
          rw [hw, List.map_inj_right (fun a b h => Option.some.inj h)]

/-- The bytes of a buffer read back as bytes say what its cells hold. -/
theorem Buffer.bytes_eq_some {buf : Buffer} {off n : Nat} {v : List Byte} :
    buf.bytes off n = some v ↔ (buf.toList.drop off).take n = v.map some :=
  readCells_eq_some

/-- Bytes within the buffer come out at the length asked for. -/
theorem Buffer.bytes_length {buf : Buffer} {off n : Nat} {v : List Byte}
    (h : buf.bytes off n = some v) (hn : off + n ≤ 64) : v.length = n := by
  have := congrArg List.length (Buffer.bytes_eq_some.1 h)
  simp at this
  omega

end Sys2Proof.Machine
end

