-- ==== Sys2Proof/Laws/Draws.lean ====
section
/-! SUPPORT. The laws of the draws: making one moves the others up by one. -/

namespace Sys2Proof.Machine

theorem Draws.look_rest {α : Type} (free : Nat → α) (d : Draws α) (i : Nat) :
    d.rest.look free i = d.look free (i + 1) := by
  simp only [Draws.look, Draws.rest, List.getElem?_tail]
  cases d.given[i + 1]? with
  | some x => rfl
  | none => simp only [Nat.add_assoc, Nat.add_comm 1 i]

@[simp] theorem State.okAt_dropOk (s : State) (i : Nat) : s.dropOk.okAt i = s.okAt (i + 1) :=
  Draws.look_rest _ _ _

@[simp] theorem State.engineAt_dropEngine (s : State) (i : Nat) :
    s.dropEngine.engineAt i = s.engineAt (i + 1) :=
  Draws.look_rest _ _ _

@[simp] theorem State.hiAt_dropHi (s : State) (i : Nat) : s.dropHi.hiAt i = s.hiAt (i + 1) :=
  Draws.look_rest _ _ _

@[simp] theorem State.wipAt_dropWip (s : State) (i : Nat) : s.dropWip.wipAt i = s.wipAt (i + 1) :=
  Draws.look_rest _ _ _

end Sys2Proof.Machine
end

