-- ==== Sys2Proof/Laws/Engine.lean ====
section
/-! SUPPORT. What one cipher call computes and what it leaves in the engine. -/

namespace Sys2Proof.Machine

/-- The block function of a state-array function under a schedule. -/
def blockOf (f : List Col → AesState → AesState) (w : List Col) (b : List Byte) : List Byte :=
  storeBlock (f w (loadBlock b))

/-- Blocks under a ready schedule: each block alone, in ascending order; only the state array moves. -/
theorem engineBlocks_ready {f : List Col → AesState → AesState} {w : List Col} (n : Nat) :
    ∀ (input : List Byte) (s : State), s.ks = .ready w →
      ∃ aes, engineBlocks f n input s = (ecbBlocks (blockOf f w) n input, { s with aes := aes }) := by
  induction n with
  | zero => exact fun input s _ => ⟨s.aes, rfl⟩
  | succ n ih =>
    intro input s hs
    have hfirst : engineBlock f (input.take blockSize) s =
        (blockOf f w (input.take blockSize),
          { s with aes := some (f w (loadBlock (input.take blockSize))) }) := by
      simp [engineBlock, hs, blockOf]
    obtain ⟨aes, h⟩ := ih (input.drop blockSize)
      { s with aes := some (f w (loadBlock (input.take blockSize))) } hs
    exact ⟨aes, by simp only [engineBlocks, hfirst, h, ecbBlocks]⟩

/-- A whole call: the blocks under the expanded key, and an idle engine afterwards (40_cipher R160). -/
theorem engineCall_eq (f : List Col → AesState → AesState) (n : Nat) (input : List Byte) (s : State) :
    engineCall f n input s =
      (ecbBlocks (blockOf f (keyExpansion s.cfg.aesKey)) n input, s.engineFinal) := by
  obtain ⟨aes, h⟩ := engineBlocks_ready (f := f) (w := keyExpansion s.cfg.aesKey) n input s.engineInit rfl
  simp only [engineCall, h]
  rfl

@[simp] theorem storeBlock_length (s : AesState) : (storeBlock s).length = blockSize := rfl

/-- A call of `n` blocks gives `16n` bytes, no padding (40_cipher R140). -/
theorem ecbBlocks_length {f : List Byte → List Byte} (hf : ∀ b, (f b).length = blockSize) (n : Nat) :
    ∀ bytes, (ecbBlocks f n bytes).length = blockBytes n := by
  induction n with
  | zero => intro; rfl
  | succ n ih => intro bytes; simp only [ecbBlocks, List.length_append, hf, ih, blockBytes]; ring

/-- Loading what was stored gives the state array back (40_cipher R142). -/
@[simp] theorem loadBlock_storeBlock (s : AesState) : loadBlock (storeBlock s) = s := rfl

end Sys2Proof.Machine
end

