-- ==== Sys2Proof/Laws/Memory.lean ====
section
/-! SUPPORT. The laws of the device array: what a read gives after a write, and that every operation
keeps the canonical form. -/

namespace Sys2Proof.Machine

variable {base : Nat → Byte}

theorem Memory.wfFrom_cons {lo k : Nat} {v : Byte} {rest : Memory} :
    Memory.wfFrom base lo ((k, v) :: rest) = true ↔
      lo ≤ k ∧ v ≠ base k ∧ Memory.wfFrom base (k + 1) rest = true := by
  simp [Memory.wfFrom, and_assoc]

theorem Memory.wfFrom_mono {lo lo' : Nat} {m : Memory} (h : lo' ≤ lo)
    (hm : Memory.wfFrom base lo m = true) : Memory.wfFrom base lo' m = true := by
  cases m with
  | nil => rfl
  | cons c rest =>
    obtain ⟨k, v⟩ := c
    rw [Memory.wfFrom_cons] at hm ⊢
    exact ⟨h.trans hm.1, hm.2⟩

/-- A canonical memory reads as unlisted below its first address. -/
theorem Memory.read_below {lo a : Nat} {m : Memory} (hm : Memory.wfFrom base lo m = true) (ha : a < lo) :
    m.read base a = base a := by
  induction m generalizing lo with
  | nil => rfl
  | cons c rest ih =>
    obtain ⟨k, v⟩ := c
    rw [Memory.wfFrom_cons] at hm
    have hk : k ≠ a := by omega
    simp only [Memory.read, hk, if_false]
    exact ih hm.2.2 (by omega)

/-- A write keeps the canonical form. -/
theorem Memory.write_wfFrom {lo a : Nat} {v : Byte} {m : Memory}
    (hm : Memory.wfFrom base lo m = true) (ha : lo ≤ a) :
    Memory.wfFrom base lo (Memory.write base a v m) = true := by
  induction m generalizing lo with
  | nil =>
    by_cases hv : v = base a
    · simp [Memory.write, hv, Memory.wfFrom]
    · simp [Memory.write, hv, Memory.wfFrom, ha]
  | cons c rest ih =>
    obtain ⟨k, w⟩ := c
    rw [Memory.wfFrom_cons] at hm
    obtain ⟨hk, hw, hrest⟩ := hm
    unfold Memory.write
    split
    · rw [Memory.wfFrom_cons]
      exact ⟨hk, hw, ih hrest (by omega)⟩
    · split
      · subst_vars
        split
        · exact Memory.wfFrom_mono (by omega) hrest
        · rename_i hne
          rw [Memory.wfFrom_cons]
          exact ⟨ha, hne, hrest⟩
      · split
        · rw [Memory.wfFrom_cons]
          exact ⟨hk, hw, hrest⟩
        · rename_i hne
          rw [Memory.wfFrom_cons, Memory.wfFrom_cons]
          exact ⟨ha, hne, by omega, hw, hrest⟩

/-- Every write keeps the canonical form. -/
theorem Memory.write_wf {a : Nat} {v : Byte} {m : Memory} (hm : m.wf base = true) :
    (m.write base a v).wf base = true :=
  Memory.write_wfFrom hm (Nat.zero_le a)

/-- What a read gives after a write. -/
theorem Memory.read_write {a x : Nat} {v : Byte} {m : Memory} (hm : m.wf base = true) :
    (m.write base a v).read base x = if x = a then v else m.read base x := by
  have key : ∀ (lo : Nat) (m : Memory), Memory.wfFrom base lo m = true →
      (Memory.write base a v m).read base x = if x = a then v else m.read base x := by
    intro lo m
    induction m generalizing lo with
    | nil =>
      intro _
      by_cases hx : x = a
      · subst hx
        by_cases hv : v = base x <;> simp [Memory.write, Memory.read, hv]
      · by_cases hv : v = base a
        · simp [Memory.write, Memory.read, hv, hx]
        · simp [Memory.write, Memory.read, hv, hx, Ne.symm hx]
    | cons c rest ih =>
      obtain ⟨k, w⟩ := c
      intro h
      rw [Memory.wfFrom_cons] at h
      obtain ⟨-, -, hrest⟩ := h
      have hbelow : ∀ y, y ≤ k → Memory.read base y rest = base y := fun y hy =>
        Memory.read_below hrest (Nat.lt_succ_of_le hy)
      unfold Memory.write
      split
      · rename_i hlt
        simp only [Memory.read, ih (k + 1) hrest]
        by_cases hx : k = x
        · have : x ≠ a := by omega
          simp [hx, this]
        · simp [hx]
      · rename_i hge
        split
        · rename_i heq
          by_cases hx : x = a
          · have hxk : x ≤ k := by omega
            split
            · rename_i hv; rw [hbelow x hxk]; simp [hx, hv]
            · simp [Memory.read, hx]
          · have hkx : k ≠ x := by omega
            have hax : a ≠ x := fun h => hx h.symm
            split <;> simp [Memory.read, hkx, hax]
        · rename_i hne
          by_cases hx : x = a
          · have hread := hbelow x (by omega)
            subst hx
            split
            · rename_i hv; simp [Memory.read, hne, hread, hv]
            · simp [Memory.read]
          · have hax : a ≠ x := fun h => hx h.symm
            split <;> simp [Memory.read, hax]
  exact key 0 m hm

/-- Writing bytes keeps the canonical form. -/
theorem Memory.writeBytes_wf {a : Nat} {vs : List Byte} {m : Memory} (hm : m.wf base = true) :
    (m.writeBytes base a vs).wf base = true := by
  induction vs generalizing a with
  | nil => exact hm
  | cons v vs ih => exact Memory.write_wf ih

/-- What a read gives after a write of bytes. -/
theorem Memory.read_writeBytes {a x : Nat} {vs : List Byte} {m : Memory} (hm : m.wf base = true) :
    (m.writeBytes base a vs).read base x =
      if a ≤ x then (vs[x - a]?).getD (m.read base x) else m.read base x := by
  induction vs generalizing a with
  | nil => simp [Memory.writeBytes]
  | cons v vs ih =>
    simp only [Memory.writeBytes]
    rw [Memory.read_write (Memory.writeBytes_wf hm), ih]
    by_cases hx : x = a
    · subst hx; simp
    · rw [if_neg hx]
      by_cases hle : a ≤ x
      · have h1 : a + 1 ≤ x := by omega
        have h2 : x - a = (x - (a + 1)) + 1 := by omega
        rw [if_pos h1, if_pos hle, h2, List.getElem?_cons_succ]
      · have h1 : ¬ a + 1 ≤ x := by omega
        rw [if_neg h1, if_neg hle]

@[simp] theorem Memory.readBytes_length {a n : Nat} {m : Memory} :
    (m.readBytes base a n).length = n := by
  induction n generalizing a with
  | zero => rfl
  | succ n ih => simp [Memory.readBytes, ih]

/-- The `i`-th byte of a read of `n` bytes. -/
theorem Memory.readBytes_getElem? {a n i : Nat} {m : Memory} :
    (m.readBytes base a n)[i]? = if i < n then some (m.read base (a + i)) else none := by
  induction n generalizing a i with
  | zero => simp [Memory.readBytes]
  | succ n ih =>
    cases i with
    | zero => simp [Memory.readBytes]
    | succ i =>
      simp only [Memory.readBytes, List.getElem?_cons_succ, ih, Nat.add_lt_add_iff_right]
      rw [show a + 1 + i = a + (i + 1) by omega]

theorem Memory.readBytes_getElem {a n i : Nat} {m : Memory} (h : i < (m.readBytes base a n).length) :
    (m.readBytes base a n)[i] = m.read base (a + i) := by
  have hi : i < n := by simpa using h
  have := Memory.readBytes_getElem? (base := base) (a := a) (n := n) (i := i) (m := m)
  rw [List.getElem?_eq_getElem h, if_pos hi] at this
  exact Option.some.inj this

/-- The listed addresses after a write are the old ones and the written one. -/
theorem Memory.mem_write {a : Nat} {v : Byte} {m : Memory} {c : Host.Cell}
    (h : c ∈ m.write base a v) : c = (a, v) ∨ c ∈ m := by
  induction m with
  | nil =>
    unfold Memory.write at h
    split at h <;> simp_all
  | cons d rest ih =>
    obtain ⟨k, w⟩ := d
    unfold Memory.write at h
    split at h
    · rcases List.mem_cons.1 h with h | h
      · exact .inr (List.mem_cons.2 (.inl h))
      · exact (ih h).imp id (fun h => List.mem_cons.2 (.inr h))
    · split at h
      · split at h
        · exact .inr (List.mem_cons.2 (.inr h))
        · exact (List.mem_cons.1 h).imp id (fun h => List.mem_cons.2 (.inr h))
      · split at h
        · exact .inr h
        · exact List.mem_cons.1 h

/-- The listed addresses after a write of bytes are old ones or lie where the bytes went. -/
theorem Memory.mem_writeBytes {a : Nat} {vs : List Byte} {m : Memory} {c : Host.Cell}
    (h : c ∈ m.writeBytes base a vs) : (a ≤ c.1 ∧ c.1 < a + vs.length) ∨ c ∈ m := by
  induction vs generalizing a with
  | nil => exact .inr h
  | cons v vs ih =>
    rcases Memory.mem_write h with h | h
    · subst h; exact .inl ⟨le_rfl, by simp⟩
    · rcases ih h with h | h
      · exact .inl ⟨by omega, by simp only [List.length_cons]; omega⟩
      · exact .inr h

/-! ## The device -/

@[simp] theorem Device.memWrite_epoch (d : Device) (a : Nat) (v : List Byte) :
    (d.memWrite a v).epoch = d.epoch := rfl
@[simp] theorem Device.memWrite_wel (d : Device) (a : Nat) (v : List Byte) :
    (d.memWrite a v).wel = d.wel := rfl
@[simp] theorem Device.memWrite_busy (d : Device) (a : Nat) (v : List Byte) :
    (d.memWrite a v).busy = d.busy := rfl

/-- What the array reads after a write of bytes. -/
theorem Device.readByte_memWrite {d : Device} {a x : Nat} {v : List Byte}
    (hd : d.mem.wf d.base = true) :
    (d.memWrite a v).readByte x =
      if a ≤ x then (v[x - a]?).getD (d.readByte x) else d.readByte x :=
  Memory.read_writeBytes hd

/-- Latch and busy state do not matter to a read of the array. -/
@[simp] theorem Device.readByte_flags (d : Device) (w b : Bool) (x : Nat) :
    ({ d with wel := w, busy := b } : Device).readByte x = d.readByte x := rfl

/-- What the array reads after an accepted erase. -/
theorem Device.readByte_sectorErase {d : Device} {n a x : Nat} (hd : d.mem.wf d.base = true)
    (hw : d.wel = true) :
    (d.sectorErase n a).readByte x = if a ≤ x ∧ x < a + n then erased else d.readByte x := by
  simp only [Device.sectorErase, hw, if_true, Device.readByte_flags, Device.readByte_memWrite hd,
    List.getElem?_replicate]
  by_cases h1 : a ≤ x <;> by_cases h2 : x < a + n
  · simp [h1, h2, show x - a < n by omega]
  · simp [h1, h2, show ¬ x - a < n by omega]
  · simp [h1]
  · simp [h1]

/-- What the array reads after an accepted program. -/
theorem Device.readByte_pageProgram {d : Device} {a x : Nat} {v : List Byte}
    (hd : d.mem.wf d.base = true) (hw : d.wel = true) :
    (d.pageProgram a v).readByte x =
      if a ≤ x ∧ x < a + v.length then d.readByte x &&& v.getD (x - a) 0 else d.readByte x := by
  simp only [Device.pageProgram, hw, if_true, Device.readByte_flags, Device.readByte_memWrite hd]
  by_cases h1 : a ≤ x <;> by_cases h2 : x < a + v.length
  · have h3 : x - a < v.length := by omega
    have h4 : a + (x - a) = x := by omega
    simp [h1, h2, Device.memRead, Memory.readBytes_getElem, h3, h4, Device.readByte]
  · have h3 : ¬ x - a < v.length := by omega
    simp [h1, h2, Device.memRead, h3]
  · simp [h1]
  · simp [h1]

/-- The device's response to an erase keeps the canonical form. -/
theorem Device.sectorErase_wf {d : Device} {n a : Nat} (hd : d.mem.wf d.base = true) :
    (d.sectorErase n a).mem.wf (d.sectorErase n a).base = true := by
  unfold Device.sectorErase
  split
  · exact Memory.writeBytes_wf hd
  · exact hd

/-- The device's response to a program keeps the canonical form. -/
theorem Device.pageProgram_wf {d : Device} {a : Nat} {v : List Byte} (hd : d.mem.wf d.base = true) :
    (d.pageProgram a v).mem.wf (d.pageProgram a v).base = true := by
  unfold Device.pageProgram
  split
  · exact Memory.writeBytes_wf hd
  · exact hd

end Sys2Proof.Machine
end

