-- ==== Sys2Proof/Laws/PerInstr.lean ====
section
/-! SUPPORT. Laws of every instruction as syntax, one lemma for each constructor. -/

/-- What the words of a well-formed instruction look like: a command word has `Z = 0` (30_encoding
R106) and an `OP` of 1 to 8 (R101); a frame has 1 to 69 bytes (R117). -/
def Sys2Proof.Laws.EncodedForm.Statement (i : Sys2Proof.Instr) : Prop :=
  i.WellFormed →
    match Sys2Proof.encode i with
    | .command w => Sys2Proof.fieldZ w = 0 ∧ 1 ≤ Sys2Proof.fieldOp w ∧ Sys2Proof.fieldOp w ≤ 8
    | .frame bytes => 1 ≤ bytes.length ∧ bytes.length ≤ 69

open Sys2Proof

namespace Sys2Proof.Laws.EncodedForm

/-- The fields of a word whose operands are within their fields. -/
theorem word_form {op a b n : Nat} (h1 : 1 ≤ op) (h2 : op ≤ 8) (ha : a ≤ 4) (hb : b ≤ 4) (hn : n ≤ 4) :
    fieldZ (commandWord op a b n) = 0 ∧ 1 ≤ fieldOp (commandWord op a b n) ∧
      fieldOp (commandWord op a b n) ≤ 8 := by
  have key : ∀ o : Fin 8, ∀ a b n : Fin 5,
      fieldZ (commandWord (o + 1) a b n) = 0 ∧ 1 ≤ fieldOp (commandWord (o + 1) a b n) ∧
        fieldOp (commandWord (o + 1) a b n) ≤ 8 := by decide +kernel
  have := key ⟨op - 1, by omega⟩ ⟨a, by omega⟩ ⟨b, by omega⟩ ⟨n, by omega⟩
  simpa [Nat.sub_add_cancel h1] using this

theorem bufId_le (b : BufId) : bufId b ≤ 4 := by cases b <;> decide

theorem enc (src dst : BufId) (n : Nat) : Statement (.enc src dst n) := fun h =>
  word_form (by decide) (by decide) (bufId_le src) (bufId_le dst) (of_decide_eq_true h)

theorem dec (src dst : BufId) (n : Nat) : Statement (.dec src dst n) := fun h =>
  word_form (by decide) (by decide) (bufId_le src) (bufId_le dst) (of_decide_eq_true h)

theorem xactReadStatus : Statement .xactReadStatus := fun _ =>
  word_form (by decide) (by decide) (by decide) (by decide) (by decide)

theorem xactWriteEnable : Statement .xactWriteEnable := fun _ =>
  word_form (by decide) (by decide) (by decide) (by decide) (by decide)

theorem xactSectorErase : Statement .xactSectorErase := fun _ =>
  word_form (by decide) (by decide) (by decide) (by decide) (by decide)

theorem xactQuadPageProgram (b : BufId) : Statement (.xactQuadPageProgram b) := fun _ =>
  word_form (by decide) (by decide) (by decide) (bufId_le b) (by decide)

theorem xactQuadIoRead (b : BufId) : Statement (.xactQuadIoRead b) := fun _ =>
  word_form (by decide) (by decide) (by decide) (bufId_le b) (by decide)

theorem poll : Statement .poll := fun _ =>
  word_form (by decide) (by decide) (by decide) (by decide) (by decide)

theorem chkff (b : BufId) : Statement (.chkff b) := fun _ =>
  word_form (by decide) (by decide) (bufId_le b) (by decide) (by decide)

theorem fill (b : BufId) : Statement (.fill b) := fun _ =>
  word_form (by decide) (by decide) (bufId_le b) (by decide) (by decide)

theorem cmp (x y : BufId) : Statement (.cmp x y) := fun _ =>
  word_form (by decide) (by decide) (bufId_le x) (bufId_le y) (by decide)

theorem run : Statement .run := fun _ =>
  word_form (by decide) (by decide) (by decide) (by decide) (by decide)

theorem flashReadStatus : Statement .flashReadStatus := fun _ => by simp [encode]

theorem flashWriteEnable : Statement .flashWriteEnable := fun _ => by simp [encode]

theorem flashSectorErase (a : Word) : Statement (.flashSectorErase a) := fun _ => by
  simp [encode, addrBytes32]

theorem flashQuadPageProgram (a : Word) (data : List Byte) :
    Statement (.flashQuadPageProgram a data) := fun h => by
  have : data.length = 64 := of_decide_eq_true h
  simp [encode, addrBytes32, this]

theorem flashQuadIoRead (a : Word) (mode : Option Byte) : Statement (.flashQuadIoRead a mode) := fun _ => by
  cases mode <;> simp [encode, addrBytes32]

end Sys2Proof.Laws.EncodedForm
end

