-- ==== Sys2Proof/Laws/Transport.lean ====
section
/-! SUPPORT. What a transaction can do: the frame of the device's response, the inversion of the busy
check and of the address checks, and the parts of the transaction that went out. -/

namespace Sys2Proof.Machine

/-- Going on after a check that may stop: it answers a next state exactly when the check passed. -/
theorem guardFault_eq_next {α : Type} {c : Except Fault α} {k : α → Result State} {t : State} :
    guardFault c k = .next t ↔ ∃ x, c = .ok x ∧ k x = .next t := by
  cases c <;> simp [guardFault]

/-- A meaning built on checks refuses nothing of its own. -/
theorem guardFault_eq_fault {α : Type} {c : Except Fault α} {k : α → Result State} {f : Fault} :
    guardFault c k = .fault f ↔ c = .error f ∨ ∃ x, c = .ok x ∧ k x = .fault f := by
  cases c <;> simp [guardFault]

/-- Mapping over a next state. -/
theorem mapNext_eq_next {g : State → State} {r : Result State} {t : State} :
    r.mapNext g = .next t ↔ ∃ u, r = .next u ∧ t = g u := by
  cases r <;> simp [Result.mapNext, eq_comm]

/-- The device's response changes the device and makes draws of the status byte, nothing else. -/
theorem deviceRespond_frame (k : Kind) (a : Word) (out : List Byte) (s : State) :
    ∃ dev hi wip, (deviceRespond k a out s).2 = { s with dev := dev, hiDraws := hi, wipDraws := wip } := by
  cases k
  case readStatus =>
    by_cases hb : s.dev.busy
    · exact ⟨_, _, _, by simp only [deviceRespond, readStatusResponse, hb, if_true]; rfl⟩
    · exact ⟨_, _, _, by simp only [deviceRespond, readStatusResponse, hb]; rfl⟩
  all_goals exact ⟨_, _, _, rfl⟩

/-- A transaction that goes out changes the device, the draws and the bus trace, nothing else; its
record is the one of 42_transport R206. -/
theorem txnRun_frame (d : CommandDescriptor) (k : Kind) (a : Word) (out : List Byte) (s : State) :
    ∃ dev hi wip, (txnRun d k a out s).state =
      { s with
        dev := dev
        okDraws := s.okDraws.rest
        hiDraws := hi
        wipDraws := wip
        trace := s.trace ++
          [txnRecord d k a out (txnRun d k a out s).ok (txnRun d k a out s).input] } := by
  obtain ⟨dev, hi, wip, h⟩ := deviceRespond_frame k a out s.dropOk
  by_cases hok : s.okAt 0 = true
  · exact ⟨dev, hi, wip, by simp only [txnRun, hok, if_true, h]; rfl⟩
  · exact ⟨_, _, _, by simp only [txnRun, hok]; rfl⟩

@[simp] theorem txnRun_ok (d : CommandDescriptor) (k : Kind) (a : Word) (out : List Byte) (s : State) :
    (txnRun d k a out s).ok = s.okAt 0 := rfl

/-- A good transaction leaves the device as its response says. -/
theorem txnRun_dev_ok {d : CommandDescriptor} {k : Kind} {a : Word} {out : List Byte} {s : State}
    (h : s.okAt 0 = true) :
    (txnRun d k a out s).state.dev = (deviceRespond k a out s.dropOk).2.dev := by
  simp [txnRun, h]

/-- A failed transaction leaves the device drawn afresh (20_memory R80). -/
theorem txnRun_dev_failed {d : CommandDescriptor} {k : Kind} {a : Word} {out : List Byte} {s : State}
    (h : s.okAt 0 = false) :
    (txnRun d k a out s).state.dev = (havocDevice s.dropOk).dev := by
  simp [txnRun, h]

/-- A transaction goes out unless a busy device is asked for more than its status (20_memory R79). -/
theorem txn_eq_ok {d : CommandDescriptor} {k : Kind} {a : Word} {out : List Byte} {s : State} {t : TxnDone} :
    txn d k a out s = .ok t ↔ (s.dev.busy = true → k = .readStatus) ∧ t = txnRun d k a out s := by
  unfold txn
  by_cases hb : s.dev.busy = true <;> by_cases hk : k = .readStatus <;> simp [hb, hk, eq_comm]

/-- Read-Status always goes out. -/
theorem statusTxn_eq (s : State) :
    statusTxn s = .ok (txnRun (descriptor s.cfg .readStatus) .readStatus 0 [] s) := by
  simp [statusTxn, txn]

theorem enableTxn_eq_ok {s : State} {t : TxnDone} :
    enableTxn s = .ok t ↔ s.dev.busy = false ∧
      t = txnRun (descriptor s.cfg .writeEnable) .writeEnable 0 [] s := by
  simp [enableTxn, txn_eq_ok]

theorem eraseTxn_eq_ok {a : Word} {s : State} {t : TxnDone} :
    eraseTxn a s = .ok t ↔ a.toNat % s.cfg.sectorSize = 0 ∧
      a.toNat + s.cfg.sectorSize ≤ s.cfg.deviceSize ∧ s.dev.busy = false ∧
      t = txnRun (descriptor s.cfg .sectorErase) .sectorErase a [] s := by
  unfold eraseTxn
  by_cases h1 : a.toNat % s.cfg.sectorSize = 0
  · by_cases h2 : a.toNat + s.cfg.sectorSize ≤ s.cfg.deviceSize
    · simp [h1, h2, Nat.not_lt.2 h2, txn_eq_ok]
    · simp [h1, h2, Nat.lt_of_not_le h2]
  · simp [h1]

theorem programTxn_eq_ok {a : Word} {payload : Except Fault (List Byte)} {s : State} {t : TxnDone} :
    programTxn a payload s = .ok t ↔ ∃ out, payload = .ok out ∧ a.toNat % pageSize = 0 ∧
      a.toNat + pageSize ≤ s.cfg.deviceSize ∧ s.dev.busy = false ∧
      t = txnRun (descriptor s.cfg .quadPageProgram) .quadPageProgram a out s := by
  unfold programTxn
  by_cases h1 : a.toNat % pageSize = 0
  · by_cases h2 : a.toNat + pageSize ≤ s.cfg.deviceSize
    · cases payload with
      | error f => simp [h1, Nat.not_lt.2 h2]
      | ok out => simp [h1, h2, Nat.not_lt.2 h2, txn_eq_ok]
    · simp [h1, h2, Nat.lt_of_not_le h2]
  · simp [h1]

theorem readTxn_eq_ok {m : Option Byte} {a : Word} {s : State} {t : TxnDone} :
    readTxn m a s = .ok t ↔ a.toNat + pageSize ≤ s.cfg.deviceSize ∧ s.dev.busy = false ∧
      t = txnRun (quadIoReadWith m) .quadIoRead a [] s := by
  unfold readTxn
  by_cases h2 : a.toNat + pageSize ≤ s.cfg.deviceSize
  · simp [h2, Nat.not_lt.2 h2, txn_eq_ok]
  · simp [h2, Nat.lt_of_not_le h2]

/-- The device keeps its canonical form through every transaction. -/
theorem txnRun_wf {d : CommandDescriptor} {k : Kind} {a : Word} {out : List Byte} {s : State}
    (h : s.dev.mem.wf s.dev.base = true) :
    (txnRun d k a out s).state.dev.mem.wf (txnRun d k a out s).state.dev.base = true := by
  by_cases hok : s.okAt 0 = true
  · rw [txnRun_dev_ok hok]
    cases k
    case readStatus =>
      by_cases hb : s.dev.busy = true <;>
        simpa [deviceRespond, readStatusResponse, hb, Device.base] using h
    case writeEnable => exact h
    case sectorErase => exact Device.sectorErase_wf h
    case quadPageProgram => exact Device.pageProgram_wf h
    case quadIoRead => exact h
  · rw [txnRun_dev_failed (by simpa using hok)]
    rfl

end Sys2Proof.Machine
end

