-- ==== Sys2Proof/Laws/Poll.lean ====
section
/-! SUPPORT. What one poll iteration can do (43_busy_poll R245). -/

namespace Sys2Proof.Machine

/-- The Read-Status of a poll. -/
def pollTxn (s : State) : TxnDone := txnRun (descriptor s.cfg .readStatus) .readStatus 0 [] s

/-- An iteration that answers a next state hit the bound, or issued a Read-Status and took its result. -/
theorem pollStep_eq_next {s t : State} :
    pollStep s = .next t ↔
      (s.cfg.maxPolls = some s.pollCnt.toNat ∧ t = s.raise .deviceBusyTimeout) ∨
      (s.cfg.maxPolls ≠ some s.pollCnt.toNat ∧
        ¬ (s.cfg.maxPolls = none ∧ s.pollCnt.toNat = 2 ^ 32 - 1) ∧ t = pollResult (pollTxn s)) := by
  unfold pollStep
  by_cases h1 : s.cfg.maxPolls = some s.pollCnt.toNat
  · simp [h1, eq_comm]
  · by_cases h2 : s.cfg.maxPolls = none ∧ s.pollCnt.toNat = 2 ^ 32 - 1
    · rw [if_neg h1, if_pos h2]
      simp [h2]
    · rw [if_neg h1, if_neg h2, statusTxn_eq]
      simp only [guardFault, pollTxn, h1, false_and, false_or, ne_eq, not_false_eq_true, true_and, h2,
        Host.Outcome.next.injEq, eq_comm]

/-- An iteration never refuses, and its one fault is the overflow of an unbounded count. -/
theorem pollStep_eq_fault {s : State} {f : Fault} :
    pollStep s = .fault f ↔
      s.cfg.maxPolls = none ∧ s.pollCnt.toNat = 2 ^ 32 - 1 ∧ f = .pollCounterOverflow := by
  unfold pollStep
  by_cases h1 : s.cfg.maxPolls = some s.pollCnt.toNat
  · simp [h1]
  · by_cases h2 : s.cfg.maxPolls = none ∧ s.pollCnt.toNat = 2 ^ 32 - 1
    · rw [if_neg h1, if_pos h2]
      simp [h2, eq_comm]
    · rw [if_neg h1, if_neg h2, statusTxn_eq]
      simp only [guardFault, reduceCtorEq, false_iff]
      exact fun h => h2 ⟨h.1, h.2.1⟩

end Sys2Proof.Machine
end

