-- ==== Sys2Proof/Laws/Wire.lean ====
section
/-! SUPPORT. The laws of chip select on the wire (42_transport R214). -/

namespace Sys2Proof.Machine

/-- Clocks under an asserted CS# assert nothing. -/
theorem assertions_clocks (cs : List WireClock) (rest : List WireTick) :
    assertions false (cs.map clockTick ++ rest) = assertions false rest := by
  induction cs with
  | nil => rfl
  | cons c cs ih => simpa [assertions, clockTick] using ih

/-- A transaction that begins with CS# released asserts it once and leaves it released. -/
theorem assertions_framed (rec : TxnRecord) (rest : List WireTick) :
    assertions true (rec.framed ++ rest) = 1 + assertions true rest := by
  simp [TxnRecord.framed, assertions, selectTick, releaseTick, assertions_clocks]

/-- Within a transaction the clock runs only under an asserted CS#. -/
theorem framed_clock {rec : TxnRecord} {tick : WireTick} (h : tick ∈ rec.framed)
    (hcs : tick.csN = true) : tick.clock = none := by
  simp only [TxnRecord.framed, List.mem_cons, List.mem_append, List.mem_map, List.not_mem_nil,
    or_false] at h
  rcases h with rfl | ⟨c, -, rfl⟩ | rfl
  · rfl
  · cases hcs
  · rfl

/-- The bus over a longer trace goes on where the shorter one ends. -/
theorem traceWire_append (t u : List TxnRecord) :
    traceWire (t ++ u) = traceWire t ++ u.flatMap TxnRecord.framed := by
  simp [traceWire]

end Sys2Proof.Machine
end

