-- ==== Sys2Proof/Tests/Slice0.lean ====
section
/-! SUPPORT. The model's own tests. `test_…` compares with a value of spec/95_test_vectors.md or of a
worked example of a rule; `wit_…` shows that the hypotheses of an obligation can be met together. -/

namespace Sys2Proof.Tests

set_option Elab.async false

open Sys2Proof Sys2Proof.Machine

/-! ## Helpers -/

/-- The key `K1` of 95_test_vectors section 2.1. -/
def k1 : Vector Byte 16 :=
  #v[0x00, 0x01, 0x02, 0x03, 0x04, 0x05, 0x06, 0x07, 0x08, 0x09, 0x0a, 0x0b, 0x0c, 0x0d, 0x0e, 0x0f]

/-- The key `K2` of 95_test_vectors section 2.1. -/
def k2 : Vector Byte 16 :=
  #v[0x2b, 0x7e, 0x15, 0x16, 0x28, 0xae, 0xd2, 0xa6, 0xab, 0xf7, 0x15, 0x88, 0x09, 0xcf, 0x4f, 0x3c]

/-- The flash parameters of 95_test_vectors section 2.1. -/
def cfg : Config := ⟨k1, 4096, 0x10000, none, true⟩

/-- `P64` in every cell. -/
def p64 : Buffer := Vector.ofFn fun i => some (BitVec.ofNat 8 i.val)

/-- A page of one byte. -/
def page (b : Byte) : Buffer := Vector.replicate 64 (some b)

/-- An idle core with good draws settled: `P` holds `P64`, `D` too, `E` is erased. -/
def demo : State :=
  { State.launch cfg with
    bufs := ⟨p64, Buffer.blank, page 0xFF, Buffer.blank, p64⟩
    okDraws := ⟨List.replicate 11 true, 0⟩
    engineDraws := ⟨[true, true], 0⟩
    hiDraws := ⟨[0x41, 0x00], 0⟩
    wipDraws := ⟨[true, true, false, true, false], 0⟩ }

/-- `demo` with a failed transport and a failed engine. -/
def broken : State := { demo with okDraws := ⟨[false], 0⟩, engineDraws := ⟨[false], 0⟩ }

/-- `demo` with the device busy. -/
def busy : State := { demo with dev := ⟨[], 0, false, true⟩ }

/-- `demo` inside RUN at a command of the program. -/
def inRun (k : Fin 14) : State := { demo with phase := .running .run, opc := k }

/-- `busy` in the middle of a POLL. -/
def polling (p : Phase) (k : Fin 14) (n : Word) : State := { busy with phase := p, opc := k, pollCnt := n }

/-- Whether an outcome is a next state with a property. -/
def nextIs (r : Result State) (p : State → Bool) : Bool :=
  match r with
  | .next t => p t
  | .fault _ => false
  | .refused _ => false

/-- Whether an outcome is a certain fault. -/
def faultIs (r : Result State) (f : Fault) : Bool :=
  match r with
  | .next _ => false
  | .fault g => decide (g = f)
  | .refused _ => false

/-- Whether an outcome is a certain refusal. -/
def refusalIs (r : Result State) (f : Refusal) : Bool :=
  match r with
  | .next _ => false
  | .fault _ => false
  | .refused g => decide (g = f)

/-! ## Well-formedness: each check refuses an ill-formed term -/

theorem test_enc_five_blocks_ill_formed : (Instr.enc .P .C 5).wellFormed = false := by decide
theorem test_dec_five_blocks_ill_formed : (Instr.dec .P .C 5).wellFormed = false := by decide
theorem test_short_page_ill_formed :
    (Instr.flashQuadPageProgram 0 (List.replicate 63 0)).wellFormed = false := by decide

/-! ## Decoding: words written out from 30_encoding R100 to R105 and 41_descriptors R184 -/

/-- `OP` 1, `A` 0 (P), `B` 1 (C), `N` 4; `OP` 2, `A` 3 (R), `B` 4 (D), `N` 4. -/
theorem test_decode_cipher :
    decode (.command 0b0000000000000000_0100_0001_0000_0001) = .ok (.enc .P .C 4) ∧
    decode (.command 0b0000000000000000_0100_0100_0011_0010) = .ok (.dec .R .D 4) := by decide

/-- `OP` 3 with kinds 0 to 4 in `A`, the buffer of kinds 3 and 4 in `B`. -/
theorem test_decode_xact :
    decode (.command 0b0000000000000000_0000_0000_0000_0011) = .ok .xactReadStatus ∧
    decode (.command 0b0000000000000000_0000_0000_0001_0011) = .ok .xactWriteEnable ∧
    decode (.command 0b0000000000000000_0000_0000_0010_0011) = .ok .xactSectorErase ∧
    decode (.command 0b0000000000000000_0000_0001_0011_0011) = .ok (.xactQuadPageProgram .C) ∧
    decode (.command 0b0000000000000000_0000_0010_0100_0011) = .ok (.xactQuadIoRead .E) := by decide

/-- `OP` 4 to 8. -/
theorem test_decode_orchestrator :
    decode (.command 0b0000000000000000_0000_0000_0000_0100) = .ok .poll ∧
    decode (.command 0b0000000000000000_0000_0000_0010_0101) = .ok (.chkff .E) ∧
    decode (.command 0b0000000000000000_0000_0000_0011_0110) = .ok (.fill .R) ∧
    decode (.command 0b0000000000000000_0000_0000_0100_0111) = .ok (.cmp .D .P) ∧
    decode (.command 0b0000000000000000_0000_0000_0000_1000) = .ok .run := by decide

/-- The frames of V-DESC-1 to V-DESC-5b. -/
theorem test_decode_frames :
    decode (.frame [0b00000101]) = .ok .flashReadStatus ∧
    decode (.frame [0b00000110]) = .ok .flashWriteEnable ∧
    decode (.frame [0b11011100, 0x00, 0x04, 0x00, 0x00]) = .ok (.flashSectorErase 0x00040000) ∧
    decode (.frame ([0b00110100, 0x00, 0x00, 0x00, 0x00] ++ List.replicate 64 0x3C)) =
      .ok (.flashQuadPageProgram 0 (List.replicate 64 0x3C)) ∧
    decode (.frame [0b11101100, 0x12, 0x34, 0x56, 0x78, 0xFF]) =
      .ok (.flashQuadIoRead 0x12345678 (some 0xFF)) ∧
    decode (.frame [0b11101100, 0x12, 0x34, 0x56, 0x78]) = .ok (.flashQuadIoRead 0x12345678 none) := by
  decide

/-- V-CODE-18 to V-CODE-31. -/
theorem test_refusals :
    ([0x00000000, 0x00000009, 0x0000000F] : List Word).all
      (fun w => decode (.command w) = .error .reservedOpcode) = true ∧
    ([0x00010001, 0x80000008, 0x00000123, 0x00001003, 0x00001004, 0x00000014, 0x00000018,
      0x00001007] : List Word).all (fun w => decode (.command w) = .error .reservedBits) = true ∧
    ([0x00005101, 0x00004501, 0x00000053, 0x00000063, 0x00000533, 0x00000056] : List Word).all
      (fun w => decode (.command w) = .error .operandRange) = true := by decide

/-- Frames without a meaning: an instruction byte that is none of the five, and wrong lengths. -/
theorem test_frame_refusals :
    decode (.frame [0x9F]) = .error .unknownFlashOpcode ∧ decode (.frame []) = .error .frameLength ∧
    decode (.frame [0x05, 0x00]) = .error .frameLength ∧
    decode (.frame [0xDC, 0x00]) = .error .frameLength ∧
    decode (.frame ([0x34, 0, 0, 0, 0] ++ List.replicate 63 0)) = .error .frameLength := by decide

/-- Table rows by their bits, operand bytes zero. -/
theorem test_table_words :
    decodeTableWord 32 0x00000133 = some (.xactQuadPageProgram .C) ∧
    decodeTableWord 8 0xDC = some (.flashSectorErase 0) ∧ decodeTableWord 8 0x9F = none := by decide

/-- 30_encoding R130: `CMP D, P` is 0x47, and its text. -/
theorem test_assembler :
    encode (.cmp .D .P) = .command 0x00000047 ∧ commandText (.cmp .D .P) = some "CMP D, P" ∧
    AsmLine.moves (.erase 0x1000) = [.writeAddr 0x1000, .writeCmd 0x00000023] := by decide

/-! ## AES -/

/-- V-GF-1 to V-GF-5. -/
theorem test_field :
    xtime 0x57 = 0xAE ∧ xtime 0xAE = 0x47 ∧ gmul 0x57 0x83 = 0xC1 ∧ gmul 0x57 0x13 = 0xFE ∧
    gmul 0x00 0x9B = 0x00 ∧ gmul 0x9B 0x01 = 0x9B := by decide

/-- V-SB-1, V-SB-2. -/
theorem test_tables :
    [sbox 0x00, sbox 0x01, sbox 0x53, sbox 0xFF] = [0x63, 0x7C, 0xED, 0x16] ∧
    [invSbox 0x63, invSbox 0xED, invSbox 0x16] = [0x00, 0x53, 0xFF] := by decide

/-- V-SR-2. -/
theorem test_inv_shift_rows :
    storeBlock (invShiftRows (loadBlock [0x00, 0x05, 0x0a, 0x0f, 0x04, 0x09, 0x0e, 0x03,
      0x08, 0x0d, 0x02, 0x07, 0x0c, 0x01, 0x06, 0x0b])) = (List.range 16).map (BitVec.ofNat 8) := by
  decide

/-- V-MC-1, the two columns that change, and V-MC-3. -/
theorem test_mix_columns :
    mixCol ⟨0xdb, 0x13, 0x53, 0x45⟩ = ⟨0x8e, 0x4d, 0xa1, 0xbc⟩ ∧
    mixCol ⟨0xf2, 0x0a, 0x22, 0x5c⟩ = ⟨0x9f, 0xdc, 0x58, 0x9d⟩ ∧
    invMixCol ⟨0x8e, 0x4d, 0xa1, 0xbc⟩ = ⟨0xdb, 0x13, 0x53, 0x45⟩ := by decide

/-- V-KE-2, round key 10. -/
theorem test_key_expansion :
    storeBlock (roundKey (keyExpansion k1) 10) = [0x13, 0x11, 0x1d, 0x7f, 0xe3, 0x94, 0x4a, 0x17,
      0xf3, 0x07, 0xa7, 0x8b, 0x4d, 0x2b, 0x30, 0xc5] := by decide +kernel

/-- V-AES-3. -/
theorem test_cipher :
    cipher (keyExpansion k2) [0x32, 0x43, 0xf6, 0xa8, 0x88, 0x5a, 0x30, 0x8d,
      0x31, 0x31, 0x98, 0xa2, 0xe0, 0x37, 0x07, 0x34] =
    [0x39, 0x25, 0x84, 0x1d, 0x02, 0xdc, 0x09, 0xfb,
      0xdc, 0x11, 0x85, 0x97, 0x19, 0x6a, 0x0b, 0x32] := by decide +kernel

/-- V-AES-8. -/
theorem test_inv_cipher :
    invCipher (keyExpansion k1) (List.replicate 16 0xFF) =
    [0x77, 0x6f, 0x8f, 0xcf, 0x82, 0x91, 0x63, 0xf3,
      0x7d, 0x8b, 0x69, 0x45, 0x66, 0x2b, 0x30, 0xce] := by decide +kernel

/-! ## Instructions: one step each -/

/-- V-ENC-1: the first byte of the block, the cell after it unwritten, the log. -/
theorem test_enc :
    nextIs (exec (.enc .P .C 1) demo) (fun t =>
      (t.buf .C)[0] = some 0x0a && (t.buf .C)[15] = some 0x5a && (t.buf .C)[16] = none
        && t.log.length = 1) = true := by decide +kernel

/-- V-ENC-11: an engine error; `STAT` reads 0x152. -/
theorem test_enc_engine_error :
    nextIs (exec (.enc .P .C 4) broken) (fun t =>
      t.statWord = 0x152 && (t.buf .C)[63] = none && t.log = [.fail .cipherEngineError]) = true := by
  decide +kernel

/-- V-DEC-2 on the erased page in `E`: the first byte of each block is 0x77. -/
theorem test_dec :
    nextIs (exec (.dec .E .D 4) demo) (fun t =>
      (t.buf .D)[0] = some 0x77 && (t.buf .D)[48] = some 0x77 && (t.buf .D)[63] = some 0xce) = true := by
  decide +kernel

/-- V-ENC-10, for DEC: an unwritten source faults. -/
theorem test_dec_unwritten : faultIs (exec (.dec .R .D 4) demo) .unwrittenRead = true := by
  decide +kernel

/-- V-DEV-5, the first status: hi = 0b1000001 and wip = 1 give 0x83, and the device stays busy. -/
theorem test_read_status :
    nextIs (exec .xactReadStatus busy) (fun t => t.lastStatus = 0x83 && t.dev.busy) = true := by
  decide +kernel

/-- V-DEV-18: a failed Read-Status; `STAT` reads 0x112. -/
theorem test_read_status_failed :
    nextIs (exec .xactReadStatus broken) (fun t => t.statWord = 0x112 && t.lastStatus = 0) = true := by
  decide +kernel

/-- V-DEV-2. -/
theorem test_write_enable :
    nextIs (exec .xactWriteEnable demo) (fun t =>
      t.dev.wel && t.trace.map TxnRecord.opcode = [0x06]) = true := by decide +kernel

/-- V-DEV-4. -/
theorem test_write_enable_busy : faultIs (exec .xactWriteEnable busy) .deviceBusyViolation = true := by
  decide +kernel

/-- V-DEV-1: without the latch the device rejects the erase. -/
theorem test_erase_rejected :
    nextIs (exec .xactSectorErase demo) (fun t =>
      !t.dev.busy && !t.dev.wel && t.dev.mem.isEmpty && t.err = none) = true := by decide +kernel

/-- V-DEV-10. -/
theorem test_erase_misaligned :
    faultIs (exec .xactSectorErase { demo with addr := 0x800 }) .misalignedErase = true := by
  decide +kernel

/-- V-DEV-3 at the last byte of the sector, and the byte after it. -/
theorem test_erase_array (d : Device) (hd : d.mem.wf d.base = true) (hw : d.wel = true) :
    (d.sectorErase 4096 0x1000).readByte 0x1FFF = 0xFF ∧
    (d.sectorErase 4096 0x1000).readByte 0x2000 = d.readByte 0x2000 := by
  constructor <;> rw [Device.readByte_sectorErase hd hw] <;> simp [erased]

/-- V-DEV-7: 0xf0 programmed with 0x3c gives 0x30. -/
theorem test_program_array (d : Device) (hd : d.mem.wf d.base = true) (hw : d.wel = true)
    (h0 : d.readByte 0 = 0xf0) :
    (d.pageProgram 0 (0x3c :: List.replicate 63 0xFF)).readByte 0 = 0x30 := by
  rw [Device.readByte_pageProgram hd hw, h0]
  decide

/-- V-DEV-12. -/
theorem test_program_crossing :
    faultIs (exec (.xactQuadPageProgram .P) { demo with addr := 0x20 }) .pageCrossing = true := by
  decide +kernel

/-- V-DEV-13 without the latch: the last page of the device is legal. -/
theorem test_program_last_page :
    nextIs (exec (.xactQuadPageProgram .P) { demo with addr := 0xFFC0 }) (fun t =>
      t.trace.map TxnRecord.opcode = [0x34] && !t.dev.busy) = true := by decide +kernel

/-- V-DEV-9: a read needs no alignment. -/
theorem test_read_unaligned :
    nextIs (exec (.xactQuadIoRead .R) { demo with addr := 1 }) (fun t =>
      (t.buf .R)[0].isSome && (t.buf .R)[63].isSome && t.err = none) = true := by decide +kernel

/-- V-DEV-14. -/
theorem test_read_out_of_range :
    faultIs (exec (.xactQuadIoRead .R) { demo with addr := 0xFFC1 }) .addressOutOfRange = true := by
  decide +kernel

/-- V-POLL-1. -/
theorem test_poll_idle :
    nextIs (exec .poll demo) (fun t => t.pollRdy && t.pollCnt = 1 && t.phase = .idle) = true := by
  decide +kernel

/-- V-POLL-5, the fourth iteration: the bound of 3; `STAT` reads 0x10122. -/
theorem test_poll_timeout :
    nextIs (step { polling (.running .poll) 0 3 with
        cfg := { cfg with maxPolls := some 3 }, lastStatus := 0x01 }) (fun t =>
      t.statWord = 0x00010122 && t.pollCnt = 3 && t.trace.isEmpty) = true := by decide +kernel

/-- V-ORC-1, and V-ORC-2 in the first byte: `STAT` reads 0x132. -/
theorem test_chkff :
    nextIs (exec (.chkff .E) demo) (fun t => t.statWord = 0 && t.log.isEmpty) = true ∧
    nextIs (exec (.chkff .P) demo) (fun t => t.statWord = 0x132) = true := by decide +kernel

/-- V-ORC-4. -/
theorem test_fill :
    nextIs (exec (.fill .R) demo) (fun t => (t.buf .R)[0] = some 0 && (t.buf .R)[63] = some 0x3f) = true := by
  decide +kernel

/-- V-ORC-5, and V-ORC-6: `STAT` reads 0x142. -/
theorem test_cmp :
    nextIs (exec (.cmp .P .P) demo) (fun t => t.statWord = 0) = true ∧
    nextIs (exec (.cmp .D .P) { demo with bufs := ⟨p64, page 0, page 0, page 0, p64.set 63 (some 0)⟩ })
      (fun t => t.statWord = 0x142 && t.log = [.fail .programReadbackMismatch]) = true := by decide +kernel

/-- V-ORC-7. -/
theorem test_cmp_unwritten : faultIs (exec (.cmp .D .C) demo) .unwrittenRead = true := by decide +kernel

/-- 44_orchestrator R272: the target is the value of `ADDR`. -/
theorem test_run :
    nextIs (exec .run { demo with addr := 0x3000 }) (fun t =>
      t.runT = 0x3000 && t.opc = 0 && t.phase = .running .run) = true := by decide +kernel

/-- The frames in one step: each is answered and leaves one record. -/
theorem test_frames_step :
    ([0x05, 0x06, 0xDC, 0x34, 0xEC] : List Nat).all (fun w =>
      nextIs (step (demo.withFetchWord 8 w)) (fun t =>
        t.frame = none && t.trace.map TxnRecord.opcode = [BitVec.ofNat 8 w])) = true := by decide +kernel

/-- 95_test_vectors 2.8: the nibbles of V-DESC-5 on the four lines in the address and mode phases, after
the bits of `EC` on IO0. -/
theorem test_wire :
    let bit := fun (b : Bool) => [LineGroup.mk .core none none none (some b)]
    let nib := fun (n : BitVec 4) => [LineGroup.mk .core (some (n.getLsbD 3)) (some (n.getLsbD 2))
      (some (n.getLsbD 1)) (some (n.getLsbD 0))]
    ((txnRecord (descriptor cfg .quadIoRead) .quadIoRead 0x12345678 [] true (List.replicate 64 0)).wire).take 18 =
      [true, true, true, false, true, true, false, false].map bit
        ++ [0x1, 0x2, 0x3, 0x4, 0x5, 0x6, 0x7, 0x8, 0xF, 0xF].map nib := by decide +kernel

/-- 42_transport R214: the CS# level and the number of clocks around a Write-Enable between two idle
moments. -/
theorem test_chip_select :
    let t := [txnRecord (descriptor cfg .writeEnable) .writeEnable 0 [] true []]
    (traceWire t).map WireTick.csN = [true] ++ List.replicate 9 false ++ [true] ∧
    (traceWire t).map (fun tick => tick.clock.isSome) =
      [false, false] ++ List.replicate 8 true ++ [false] := by decide +kernel

/-- A refused word and a frame without a meaning stop the step by name. -/
theorem test_step_refusals :
    refusalIs (step (State.reset.withFetchWord 32 0)) (.refusedWord .reservedOpcode 0) = true ∧
    refusalIs (step (State.reset.withFetchWord 8 0x9F)) (.refusedFrame .unknownFlashOpcode [0x9F]) = true := by
  decide +kernel

/-! ## Witnesses: the hypotheses of each obligation, met together -/

/-- A state without memory, error or pass meets the invariant while it waits or runs its program. -/
theorem inv_of (s : State) (h1 : s.dev.mem = []) (h2 : s.err = none) (h3 : s.fault = false)
    (h4 : s.ks = .uninit) (h5 : s.aes = none) (h6 : s.pass = false)
    (h7 : s.phase = .idle ∨ s.phase = .running .run ∧ s.opc.val < 13 ∨
      s.phase = .running .runPoll ∧ program s.opc = some .poll ∧ s.opc.val < 13 ∧
        s.pollRdy = false ∧ s.cfg.maxPolls = none) : s.Inv := by
  constructor
  · rw [h1]; rfl
  · rw [h1]; intro c hc; cases hc
  · rcases h7 with h | ⟨h, -⟩ | ⟨h, -⟩ <;> simp [h2, h]
  · rcases h7 with h | ⟨h, -⟩ | ⟨h, -⟩ <;> simp [h3, h]
  · simp [h2]
  · exact ⟨h4, h5⟩
  · rcases h7 with h | ⟨h, h'⟩ | ⟨h, -, h', -⟩ <;> simp [Phase.inRun, *]
  · rcases h7 with h | ⟨h, -⟩ | ⟨h, -, -, h', h''⟩ <;> simp [PollsWithin, *]
  · rcases h7 with h | ⟨h, -⟩ | ⟨h, h', -⟩ <;> simp [*]
  · simp [h6]

theorem inRun_inv (k : Fin 14) (h : k.val < 13) : (inRun k).Inv :=
  inv_of _ rfl rfl rfl rfl rfl rfl (.inr (.inl ⟨rfl, h⟩))

/-- StepRunsTheDecodedInstruction, both clauses. -/
theorem wit_step_runs :
    (
      let s : State := { demo with inbox := [.writeCmd 0x00000006] }
      s.frame = none ∧ s.phase = .idle ∧ s.inbox = .writeCmd 0x00000006 :: [] ∧
        decode (.command 0x00000006) = .ok (.fill .P)) ∧
    (
      let s : State := { demo with frame := some [0x06] }
      s.frame = some [0x06] ∧ decode (.frame [0x06]) = .ok .flashWriteEnable) := by decide +kernel

/-- StepRunsTheProgramOfARun: a fault, a halt, a POLL that goes on, the steps 11 and 12. -/
theorem wit_program_step :
    (inRun 11).frame = none ∧ (inRun 11).phase = .running .run ∧
    program (inRun 11).opc = some (.dec .R .D 4) ∧
    faultIs (exec (.dec .R .D 4) (inRun 11)) .unwrittenRead = true ∧
    program (inRun 7).opc = some .xactWriteEnable ∧
    nextIs (exec .xactWriteEnable { inRun 7 with okDraws := ⟨[false], 0⟩ })
      (fun t => t.phase = .halted) = true ∧
    program (inRun 9).opc = some .poll ∧
    nextIs (exec .poll { inRun 9 with dev := ⟨[], 0, false, true⟩ })
      (fun t => t.phase = .running .runPoll) = true ∧
    nextIs (exec (.dec .E .D 4) (inRun 11)) (fun t => t.phase = .running .run && t.opc.val < 12) = true ∧
    program (inRun 12).opc = some (.cmp .D .P) ∧
    nextIs (exec (.cmp .D .P) (inRun 12)) (fun t => t.phase = .running .run && t.opc.val = 12) = true := by
  decide +kernel

/-- The last command of the program passes the RUN. -/
theorem test_run_pass :
    nextIs (step (inRun 12)) (fun t =>
      t.pass && t.opc = 13 && t.phase = .idle && t.log = [.pass]) = true := by decide +kernel

/-- HostMovesAndRefusals: the three moves, and a frame without a meaning. -/
theorem wit_host_moves :
    demo.frame = none ∧ demo.phase = .idle ∧ demo.inbox = [] ∧
    ({ demo with inbox := [.writeAddr 0xFFFFFFFF] } : State).inbox = [.writeAddr 0xFFFFFFFF] ∧
    ({ demo with inbox := [.writeCmd 0] } : State).inbox = [.writeCmd 0] ∧
    decode (.command 0) = .error .reservedOpcode ∧
    ({ demo with frame := some [0x9F] } : State).frame = some [0x9F] ∧
    decode (.frame [0x9F]) = .error .unknownFlashOpcode := by decide +kernel

/-- DecodeOfEncode and EncodeOfDecode, at the largest block count and at a program frame. -/
theorem wit_round_trip :
    (Instr.enc .D .D 4).WellFormed ∧ (Instr.flashQuadPageProgram 0xFFFFFFC0 (List.replicate 64 0xFF)).WellFormed ∧
    decode (.command 0x00004441) = .ok (.enc .D .D 4) := by decide

/-- FirstFailingCheckNamesTheRefusal: one word for each clause, in order, and an instruction byte. -/
theorem wit_refusal_clauses :
    ([0x00010001, 0x00000000, 0x00000009, 0x00000051, 0x00001003, 0x00000053, 0x00000123, 0x00000543,
      0x00001004, 0x00000105, 0x00000055, 0x00001007, 0x00000507] : List Word).map
      (fun w => (w.extractLsb' 16 16 = 0 : Bool)) =
        [false, true, true, true, true, true, true, true, true, true, true, true, true] ∧
    (0x9F : Byte) ∉ ([0x05, 0x06, 0xDC, 0x34, 0xEC] : List Byte) := by decide

/-- AssemblerWordsAndExpansions: a command word of an instruction. -/
theorem wit_command_line : encode .poll = .command 0x00000004 := by decide

/-- AssemblerWordsAndExpansions, ShiftRowsRotateRows, CipherAndInverseUndoEachOther, BufferCells,
TransactionsSendDecodableFrames, WireLengthIsClockCount: operands at the ends of their ranges. -/
theorem wit_ranges :
    (4 : Nat) ≤ 4 ∧ (3 : Nat) < 4 ∧ (List.replicate 16 (0xFF : Byte)).length = 16 ∧ 0 + 64 ≤ 64 ∧ 48 + 16 ≤ 64 ∧
    (List.replicate 64 (0xA5 : Byte)).length =
      (if Kind.quadPageProgram = .quadPageProgram then 64 else 0) ∧
    ([] : List Byte).length = (if Kind.readStatus = .quadPageProgram then 64 else 0) ∧
    ([0x01] : List Byte).length = (if Kind.readStatus.reads then Kind.readStatus.len else 0) := by decide

/-- EncDecResult, EncThenDecGivesThePlaintext: one block and four. -/
theorem wit_enc_dec :
    (1 ≤ 1 ∧ 1 ≤ 4 ∧ (demo.buf .P).bytes 0 (16 * 1) = some ((List.range 16).map (BitVec.ofNat 8))) ∧
    (1 ≤ 4 ∧ 4 ≤ 4 ∧ (demo.buf .P).bytes 0 (16 * 4) = some ((List.range 64).map (BitVec.ofNat 8))) ∧
    demo.engineAt 0 = true ∧ demo.engineAt 1 = true := by decide +kernel

/-- EngineErrorHalts. -/
theorem wit_engine_error :
    1 ≤ 4 ∧ 4 ≤ 4 ∧ (broken.buf .P).bytes 0 (16 * 4) = some ((List.range 64).map (BitVec.ofNat 8)) ∧
    broken.engineAt 0 = false := by decide +kernel

/-- UnwrittenSourceFaults, at the last byte of one block and of four. -/
theorem wit_unwritten_source :
    (15 < 16 * 1 ∧ 1 ≤ 4 ∧ (demo.buf .C)[15] = none) ∧ (63 < 16 * 4 ∧ 4 ≤ 4 ∧ (demo.buf .R)[63] = none) := by
  decide +kernel

/-- RecordPhases: both settings of the mode phase. -/
theorem wit_mode_phase : cfg.modePhase = true ∧ ({ cfg with modePhase := false } : Config).modePhase = false := by
  decide

/-- ReadStatusResult, WriteEnableResult, SectorEraseResult, PageProgramResult, QuadIoReadResult: the
command and the frame, at the first and the last address, with the latch clear and set. -/
theorem wit_good_transactions :
    demo.okAt 0 = true ∧ demo.dev.busy = false ∧ demo.dev.mem.wf demo.dev.base = true ∧
    demo.txnAddr = 0 ∧ (0 : Word).toNat % demo.cfg.sectorSize = 0 ∧
    (0xF000 : Word).toNat % demo.cfg.sectorSize = 0 ∧
    (0xF000 : Word).toNat + demo.cfg.sectorSize ≤ demo.cfg.deviceSize ∧
    (0xFFC0 : Word).toNat % 64 = 0 ∧ (0xFFC0 : Word).toNat + 64 ≤ demo.cfg.deviceSize ∧
    (demo.buf .P).bytes 0 64 = some ((List.range 64).map (BitVec.ofNat 8)) ∧
    ((List.range 64).map (BitVec.ofNat 8)).length = 64 ∧ demo.dev.wel = false ∧
    ({ demo with dev := ⟨[], 0, true, false⟩ } : State).dev.wel = true := by decide +kernel

/-- CheckOrderOfTransactions, CheckOrderOfFrames: one state for each clause (`broken` with the device
busy would still fault first). -/
theorem wit_check_order :
    (0x800 : Word).toNat % cfg.sectorSize ≠ 0 ∧
    ((0x10000 : Word).toNat % cfg.sectorSize = 0 ∧
      cfg.deviceSize < (0x10000 : Word).toNat + cfg.sectorSize) ∧
    (busy.txnAddr.toNat % busy.cfg.sectorSize = 0 ∧
      busy.txnAddr.toNat + busy.cfg.sectorSize ≤ busy.cfg.deviceSize ∧ busy.dev.busy = true) ∧
    (0x20 : Word).toNat % 64 ≠ 0 ∧
    ((0x10000 : Word).toNat % 64 = 0 ∧ cfg.deviceSize < (0x10000 : Word).toNat + 64) ∧
    (busy.txnAddr.toNat % 64 = 0 ∧ busy.txnAddr.toNat + 64 ≤ busy.cfg.deviceSize ∧
      (busy.buf .C)[63] = none ∧ ∀ i : Fin 64, (busy.buf .P)[i.val] ≠ none) ∧
    cfg.deviceSize < (0xFFC1 : Word).toNat + 64 := by decide +kernel

/-- BusErrorResult. -/
theorem wit_bus_error :
    broken.okAt 0 = false ∧ broken.dev.busy = false ∧ broken.txnAddr.toNat % broken.cfg.sectorSize = 0 ∧
    broken.txnAddr.toNat + broken.cfg.sectorSize ≤ broken.cfg.deviceSize ∧
    broken.txnAddr.toNat % 64 = 0 ∧ broken.txnAddr.toNat + 64 ≤ broken.cfg.deviceSize ∧
    (broken.buf .P).bytes 0 64 = some ((List.range 64).map (BitVec.ofNat 8)) ∧
    (0xF000 : Word).toNat % broken.cfg.sectorSize = 0 ∧
    (0xF000 : Word).toNat + broken.cfg.sectorSize ≤ broken.cfg.deviceSize ∧
    (0xFFC0 : Word).toNat % 64 = 0 ∧ (0xFFC0 : Word).toNat + 64 ≤ broken.cfg.deviceSize := by
  decide +kernel

/-- A frame that fails at another address than `ADDR` leaves the core Idle and its one record failed. -/
theorem test_frame_bus_error :
    nextIs (exec (.flashQuadIoRead 0xFFC0 none) broken) (fun t =>
      t.phase = .idle && t.err = none && t.trace.map TxnRecord.ok = [false]) = true := by decide +kernel

/-- PollOnIdleDevice, of the host and of RUN. -/
theorem wit_poll_idle :
    demo.phase = .idle ∧ (inRun 2).phase = .running .run ∧ demo.cfg.maxPolls ≠ some 0 ∧
    demo.okAt 0 = true ∧ demo.dev.busy = false ∧ (inRun 2).dev.busy = false := by decide +kernel

/-- PollStepTable: the bound, the overflow, and the three rows after them, in both phases. -/
theorem wit_poll_rows :
    let bounded : State := { polling (.running .poll) 0 3 with cfg := { cfg with maxPolls := some 3 } }
    let s := polling (.running .runPoll) 9 0xFFFFFFFE
    bounded.cfg.maxPolls = some bounded.pollCnt.toNat ∧ bounded.frame = none ∧
    (polling (.running .poll) 0 0xFFFFFFFF).cfg.maxPolls = none ∧
    s.phase = .running .runPoll ∧ s.opc.val < 12 ∧ s.cfg.maxPolls ≠ some s.pollCnt.toNat ∧
    s.pollCnt ≠ 0xFFFFFFFF ∧ s.okAt 0 = true ∧ s.statusNext.getLsbD 0 = true ∧
    ({ s with wipDraws := ⟨[false], 0⟩ } : State).statusNext.getLsbD 0 = false ∧
    ({ s with okDraws := ⟨[false], 0⟩ } : State).okAt 0 = false := by decide +kernel

/-- PollBusErrorEndsThePoll, at the first poll of the host's POLL and of RUN's, and at a later one. -/
theorem wit_poll_bus_error :
    (
      let s : State := { inRun 9 with okDraws := ⟨[false], 0⟩, pollCnt := 7 }
      s.frame = none ∧ s.okAt 0 = false ∧ s.phase = .running .run ∧ s.cfg.maxPolls ≠ some 0 ∧
        nextIs (exec .poll s) (fun t => t.pollCnt = 1 && t.phase = .halted) = true) ∧
    broken.frame = none ∧ broken.okAt 0 = false ∧ broken.phase = .idle ∧ broken.cfg.maxPolls ≠ some 0 ∧
    (
      let s : State := { polling (.running .runPoll) 2 1 with okDraws := ⟨[false], 0⟩ }
      s.okAt 0 = false ∧ s.phase = .running .runPoll ∧ s.cfg.maxPolls ≠ some s.pollCnt.toNat ∧
        s.pollCnt ≠ 0xFFFFFFFF) := by decide +kernel

theorem budget (s : State) (k : Nat) (h : k ≤ 2 ^ 32 - 1) (hm : s.cfg.maxPolls = none) : PollBudget s k :=
  ⟨h, fun m hk => by rw [hm] at hk; cases hk⟩

/-- PollReachesReadyAfterKBusyPolls, for two busy statuses (V-POLL-2) and for none. -/
theorem wit_poll_ready :
    (busy.frame = none ∧ busy.phase = .idle ∧ PollBudget busy 3 ∧ (∀ i, i ≤ 2 → busy.okAt i = true) ∧
      busy.dev.busy = true ∧ (∀ i, i < 2 → busy.wipAt i = true) ∧ busy.wipAt 2 = false) ∧
    (demo.frame = none ∧ demo.phase = .idle ∧ PollBudget demo 1 ∧ (∀ i, i ≤ 0 → demo.okAt i = true) ∧
      demo.dev.busy = false) := by
  refine ⟨⟨rfl, rfl, budget _ _ (by decide) rfl, ?_⟩, ⟨rfl, rfl, budget _ _ (by decide) rfl, ?_⟩⟩ <;>
    decide +kernel

/-- PollTimeout, with the least bound and with a bound of 2, and without a bound. -/
theorem wit_poll_timeout :
    (
      let s : State := { busy with cfg := { cfg with maxPolls := some 1 } }
      s.frame = none ∧ s.phase = .idle ∧ s.cfg.maxPolls = some 1 ∧ 1 ≤ 1 ∧ 1 ≤ 2 ^ 32 - 1 ∧
        s.dev.busy = true ∧ (∀ i, i < 1 → s.okAt i = true) ∧ (∀ i, i < 1 → s.wipAt i = true)) ∧
    (
      let s : State := { busy with cfg := { cfg with maxPolls := some 2 } }
      s.frame = none ∧ s.phase = .idle ∧ s.cfg.maxPolls = some 2 ∧ 1 ≤ 2 ∧ 2 ≤ 2 ^ 32 - 1 ∧
        s.dev.busy = true ∧ (∀ i, i < 2 → s.okAt i = true) ∧ (∀ i, i < 2 → s.wipAt i = true)) ∧
    (busy.cfg.maxPolls = none ∧ busy.err = none ∧ nextIs (exec .poll busy) (fun _ => true) = true) := by
  decide +kernel

/-- PollOfARun: two busy statuses and none, and the bounds 1 and 2. -/
theorem wit_poll_of_run :
    (
      let s : State := { inRun 9 with dev := ⟨[], 0, false, true⟩ }
      s.frame = none ∧ s.phase = .running .run ∧ program s.opc = some .poll ∧ PollBudget s 3 ∧
        (∀ i, i ≤ 2 → s.okAt i = true) ∧ s.dev.busy = true ∧ (∀ i, i < 2 → s.wipAt i = true) ∧
        s.wipAt 2 = false) ∧
    (program (inRun 2).opc = some .poll ∧ PollBudget (inRun 2) 1 ∧ (inRun 2).okAt 0 = true ∧
      (inRun 2).dev.busy = false) ∧
    (∀ m : Nat, m = 1 ∨ m = 2 →
      let s : State := { inRun 2 with
        dev := ⟨[], 0, false, true⟩, cfg := { cfg with maxPolls := some m } }
      s.cfg.maxPolls = some m ∧ 1 ≤ m ∧ m ≤ 2 ^ 32 - 1 ∧ s.dev.busy = true ∧
        (∀ i, i < m → s.okAt i = true) ∧ (∀ i, i < m → s.wipAt i = true)) := by
  refine ⟨⟨rfl, rfl, rfl, budget _ _ (by decide) rfl, ?_⟩, ⟨rfl, budget _ _ (by decide) rfl, ?_⟩, ?_⟩
  · decide +kernel
  · decide +kernel
  · rintro m (rfl | rfl) <;> decide +kernel

/-- CheckErasedResult, CompareResult: each clause. -/
theorem wit_chkff_cmp :
    (∀ i : Fin 64, (demo.buf .E)[i.val] = some 0xFF) ∧
    (∀ i : Fin 64, (demo.buf .P)[i.val] ≠ none) ∧ (demo.buf .P)[63] ≠ some 0xFF ∧
    (demo.buf .C)[63] = none ∧ (∀ i : Fin 64, (demo.buf .D)[i.val] = (demo.buf .P)[i.val]) ∧
    (demo.buf .E)[63] ≠ (demo.buf .P)[63] := by decide +kernel

/-- RunStarts: both addresses. -/
theorem wit_txn_addr : (inRun 1).phase = .running .run ∧ demo.phase = .idle := by decide

/-- RunIsAllOrNothing, RunErrorsByStep, HaltingStep, ErrorIsWrittenOnce, InvStep: a step that goes on, a
step that passes, and steps that halt with each code but the timeout. -/
theorem wit_run_steps :
    ((inRun 5).Inv ∧ (inRun 5).phase.inRun = true ∧ nextIs (step (inRun 5)) (fun t => t.phase.inRun) = true) ∧
    ((inRun 12).Inv ∧ nextIs (step (inRun 12)) (fun t => t.phase = .idle && t.pass) = true) ∧
    nextIs (step { inRun 0 with okDraws := ⟨[false], 0⟩ })
      (fun t => t.err = some .busTransactionError && t.phase = .halted) = true ∧
    nextIs (step { inRun 4 with bufs := ⟨p64, p64, p64, p64, p64⟩ })
      (fun t => t.err = some .eraseVerifyMismatch) = true ∧
    nextIs (step { inRun 6 with engineDraws := ⟨[false], 0⟩ })
      (fun t => t.err = some .cipherEngineError) = true ∧
    nextIs (step { inRun 12 with bufs := ⟨p64, p64, p64, p64, page 0⟩ })
      (fun t => t.err = some .programReadbackMismatch) = true ∧
    (inRun 12).frame = none ∧ (inRun 12).phase ≠ .halted := by
  refine ⟨⟨inRun_inv _ (by decide), ?_⟩, ⟨inRun_inv _ (by decide), ?_⟩, ?_⟩ <;> decide +kernel

/-- RunErrorsByStep at a POLL: the invariant there, and a bus error. -/
theorem wit_run_poll :
    (polling (.running .runPoll) 9 1).Inv ∧
    nextIs (step { polling (.running .runPoll) 9 1 with okDraws := ⟨[false], 0⟩ })
      (fun t => t.err = some .busTransactionError) = true :=
  ⟨inv_of _ rfl rfl rfl rfl rfl rfl (.inr (.inr ⟨rfl, by decide, by decide, rfl, rfl⟩)), by decide +kernel⟩

/-- HaltingStep: a halted core. -/
theorem wit_halted :
    nextIs (exec (.cmp .E .P) demo) (fun t => t.phase = .halted && t.frame.isNone) = true := by decide +kernel

theorem cfg_valid : cfg.Valid := ⟨by decide, by decide, by decide, by decide, trivial⟩

/-- RunEndToEnd, RunBusCounts: the premises of program L3-3, two busy statuses and one. -/
theorem wit_good_run : GoodRun demo 2 1 where
  no_frame := rfl
  idle := rfl
  config := cfg_valid
  aligned := by decide
  in_device := by decide
  mem_wf := rfl
  not_busy := rfl
  latch_clear := rfl
  transport := by decide +kernel
  engine := by decide +kernel
  busy1 := by decide +kernel
  ready1 := by decide +kernel
  busy2 := by decide +kernel
  ready2 := by decide +kernel
  budget1 := budget _ _ (by decide) rfl
  budget2 := budget _ _ (by decide) rfl

/-- OnlyTheLatchOpensTheArray: a step that ends a busy period, and one with the latch set. -/
theorem wit_latch :
    (
      let s : State := { busy with frame := some [0x05], wipDraws := ⟨[false], 0⟩ }
      s.dev.mem.wf s.dev.base = true ∧ s.okAt 0 = true ∧
        nextIs (step s) (fun t => !t.dev.busy) = true) ∧
    (
      let s : State := { demo with frame := some [0xDC, 0, 0, 0, 0], dev := ⟨[], 0, true, false⟩ }
      s.dev.mem.wf s.dev.base = true ∧ s.okAt 0 = true ∧
        nextIs (step s) (fun t => t.dev.busy && !t.dev.wel) = true) := by decide +kernel

/-- RunsKeepConfigurationAndHistory: a run of two moves. -/
theorem wit_run_history :
    nextIs (Host.Core.run Sys2Proof.core 2 { demo with inbox := [.writeAddr 0x40, .writeCmd 0x00000013] })
      (fun t => t.addr = 0x40 && t.trace.length = 1) = true := by decide +kernel

end Sys2Proof.Tests
end

section
/-! SUPPORT. What a step can do: one equation of `step` for each thing it can find, and the inversion that
lists the cases of a step that answers a next state. -/

namespace Sys2Proof.Machine

/-! ## One equation of `step` for each thing it can find -/

section
variable {s : State}

theorem step_frame {bytes : List Byte} {i : Instr} (hf : s.frame = some bytes)
    (hd : decodeFrame bytes = .ok i) : step s = exec i { s with frame := none } := by
  simp [step, fetch, hf, hd]

theorem step_refusedFrame {bytes : List Byte} {why : Reject} (hf : s.frame = some bytes)
    (hd : decodeFrame bytes = .error why) : step s = .refused (.refusedFrame why bytes) := by
  simp [step, fetch, hf, hd]

theorem step_waiting (hf : s.frame = none) (hp : s.phase = .idle) (hi : s.inbox = []) :
    step s = .next s := by
  simp [step, fetch, fetchCore, fetchHost, hf, hp, hi]

theorem step_writeAddr {v : Word} {rest : List HostAction} (hf : s.frame = none)
    (hp : s.phase = .idle) (hi : s.inbox = .writeAddr v :: rest) :
    step s = .next { s with addr := v, inbox := rest } := by
  simp [step, fetch, fetchCore, fetchHost, hf, hp, hi]

theorem step_command {w : Word} {rest : List HostAction} {i : Instr} (hf : s.frame = none)
    (hp : s.phase = .idle) (hi : s.inbox = .writeCmd w :: rest) (hd : decodeCommand w = .ok i) :
    step s = exec i { s with inbox := rest } := by
  simp [step, fetch, fetchCore, fetchHost, hf, hp, hi, hd]

theorem step_refusedWord {w : Word} {rest : List HostAction} {why : Reject} (hf : s.frame = none)
    (hp : s.phase = .idle) (hi : s.inbox = .writeCmd w :: rest)
    (hd : decodeCommand w = .error why) : step s = .refused (.refusedWord why w) := by
  simp [step, fetch, fetchCore, fetchHost, hf, hp, hi, hd]

theorem step_polling (hf : s.frame = none) (hp : s.phase = .running .poll) :
    step s = pollStep s := by
  simp [step, fetch, fetchCore, hf, hp]

theorem step_pollingInRun (hf : s.frame = none) (hp : s.phase = .running .runPoll) :
    step s = Result.mapNext afterRunStep (pollStep s) := by
  simp [step, fetch, fetchCore, hf, hp]

theorem step_program {i : Instr} (hf : s.frame = none) (hp : s.phase = .running .run)
    (hi : program s.opc = some i) : step s = Result.mapNext afterRunStep (exec i s) := by
  simp [step, fetch, fetchCore, fetchProgram, hf, hp, hi]

theorem step_programEnd (hf : s.frame = none) (hp : s.phase = .running .run)
    (hi : program s.opc = none) : step s = .next s.runPass := by
  simp [step, fetch, fetchCore, fetchProgram, hf, hp, hi]

theorem step_halted (hf : s.frame = none) (hp : s.phase = .halted) : step s = .next s := by
  simp [step, fetch, fetchCore, hf, hp]

end

/-- What a step that answers a next state did, with the guards under which it does so. -/
inductive StepCase (s : State) : State → Prop
  /-- The device answered a frame. -/
  | frame {bytes i t} (hf : s.frame = some bytes) (hd : decodeFrame bytes = .ok i)
      (h : exec i { s with frame := none } = .next t) : StepCase s t
  /-- The host has no move. -/
  | waiting (hf : s.frame = none) (hp : s.phase = .idle) (hi : s.inbox = []) : StepCase s s
  /-- The host wrote `ADDR`. -/
  | writeAddr {v rest} (hf : s.frame = none) (hp : s.phase = .idle)
      (hi : s.inbox = .writeAddr v :: rest) : StepCase s { s with addr := v, inbox := rest }
  /-- The host wrote `CMD`. -/
  | command {w rest i t} (hf : s.frame = none) (hp : s.phase = .idle)
      (hi : s.inbox = .writeCmd w :: rest) (hd : decodeCommand w = .ok i)
      (h : exec i { s with inbox := rest } = .next t) : StepCase s t
  /-- A POLL of the host went on. -/
  | polling {t} (hf : s.frame = none) (hp : s.phase = .running .poll) (h : pollStep s = .next t) :
      StepCase s t
  /-- A POLL of a RUN went on. -/
  | pollingInRun {t} (hf : s.frame = none) (hp : s.phase = .running .runPoll)
      (h : pollStep s = .next t) : StepCase s (afterRunStep t)
  /-- A RUN executed its next command. -/
  | program {i t} (hf : s.frame = none) (hp : s.phase = .running .run)
      (hi : program s.opc = some i) (h : exec i s = .next t) : StepCase s (afterRunStep t)
  /-- A RUN found no command left. -/
  | programEnd (hf : s.frame = none) (hp : s.phase = .running .run) (hi : program s.opc = none) :
      StepCase s s.runPass
  /-- A halted core takes no step (60_exceptions R302). -/
  | halted (hf : s.frame = none) (hp : s.phase = .halted) : StepCase s s

theorem stepCase_of_step {s t : State} (h : step s = .next t) : StepCase s t := by
  cases hf : s.frame with
  | some bytes =>
    cases hd : decodeFrame bytes with
    | ok i => exact .frame hf hd (step_frame hf hd ▸ h)
    | error why => simp [step_refusedFrame hf hd] at h
  | none =>
    cases hp : s.phase with
    | idle =>
      rcases hi : s.inbox with _ | ⟨v | w, rest⟩
      · rw [step_waiting hf hp hi] at h
        cases h
        exact .waiting hf hp hi
      · rw [step_writeAddr hf hp hi] at h
        cases h
        exact .writeAddr hf hp hi
      · cases hd : decodeCommand w with
        | ok i => exact .command hf hp hi hd (step_command hf hp hi hd ▸ h)
        | error why => simp [step_refusedWord hf hp hi hd] at h
    | running job =>
      cases job with
      | poll => exact .polling hf hp (step_polling hf hp ▸ h)
      | runPoll =>
        rw [step_pollingInRun hf hp] at h
        obtain ⟨u, hu, rfl⟩ := mapNext_eq_next.1 h
        exact .pollingInRun hf hp hu
      | run =>
        cases hi : program s.opc with
        | some i =>
          rw [step_program hf hp hi] at h
          obtain ⟨u, hu, rfl⟩ := mapNext_eq_next.1 h
          exact .program hf hp hi hu
        | none =>
          rw [step_programEnd hf hp hi] at h
          cases h
          exact .programEnd hf hp hi
    | halted =>
      rw [step_halted hf hp] at h
      cases h
      exact .halted hf hp

/-- Settles O1: the two equations of `step` for a frame and for a word in `CMD`. -/
theorem stepRunsTheDecodedInstruction : Obligations.StepRunsTheDecodedInstruction :=
  ⟨fun _ _ _ _ hf hp hi hd => step_command hf hp hi hd, fun _ _ _ hf hd => step_frame hf hd⟩

/-- Settles O4: the equations of `step` for the host's other moves and for the refusals. -/
theorem hostMovesAndRefusals : Obligations.HostMovesAndRefusals :=
  ⟨fun _ hf hp =>
    ⟨fun _ _ hi => step_writeAddr hf hp hi, fun hi => step_waiting hf hp hi,
      fun _ _ _ hi hd => step_refusedWord hf hp hi hd⟩,
    fun _ _ _ hf hd => step_refusedFrame hf hd⟩

end Sys2Proof.Machine
end

section
/-! SUPPORT. What the decoder answers: frames give flash instructions, and everything is well formed. -/

namespace Sys2Proof

/-- Whether an instruction is a frame the flash device receives (30_encoding R118). -/
def Instr.isFrame : Instr → Bool
  | .flashReadStatus | .flashWriteEnable | .flashSectorErase _ | .flashQuadPageProgram _ _
  | .flashQuadIoRead _ _ => true
  | _ => false

theorem decodeAddressed_ok {op : Byte} {a : Word} {rest : List Byte} {i : Instr}
    (h : decodeAddressed op a rest = .ok i) : i.isFrame = true ∧ i.WellFormed := by
  unfold decodeAddressed at h
  split_ifs at h with h1 h2 h3 h4
  · cases h; exact ⟨rfl, rfl⟩
  · cases h; exact ⟨rfl, decide_eq_true h4⟩
  · split at h
    · cases h; exact ⟨rfl, rfl⟩
    · cases h; exact ⟨rfl, rfl⟩
    · cases h

/-- What decodes from a frame is a well-formed flash instruction. -/
theorem decodeFrame_ok {bytes : List Byte} {i : Instr} (h : decodeFrame bytes = .ok i) :
    i.isFrame = true ∧ i.WellFormed := by
  rcases bytes with _ | ⟨op, rest⟩
  · cases h
  · simp only [decodeFrame] at h
    split_ifs at h
    · cases h; exact ⟨rfl, rfl⟩
    · cases h; exact ⟨rfl, rfl⟩
    · split at h
      · exact decodeAddressed_ok h
      · cases h

theorem decodeXact_ok {a b : Nat} {i : Instr} (h : decodeXact a b = .ok i) : i.WellFormed := by
  unfold decodeXact at h
  split_ifs at h
  split at h <;> cases h <;> rfl

/-- What decodes from a command word is well formed. -/
theorem decodeCommand_wellFormed {w : Word} {i : Instr} (h : decodeCommand w = .ok i) :
    i.WellFormed := by
  unfold decodeCommand at h
  simp only at h
  split at h
  · cases h
  split at h
  case h_1 | h_2 =>
    split_ifs at h with hn
    cases h
    exact decide_eq_true (by omega)
  case h_3 =>
    split_ifs at h
    exact decodeXact_ok h
  case h_9 => cases h
  all_goals
    split_ifs at h
    cases h
    rfl

end Sys2Proof
end

section
/-! SUPPORT. What a command can change: transactions and frames change the device and the trace, every other
command but POLL and RUN completes that quietly or halts. -/

namespace Sys2Proof.Machine

/-- The device's memory is in its canonical form and lists only addresses of the device (20_memory R63). -/
structure State.ArrayOk (s : State) : Prop where
  wf : s.dev.mem.wf s.dev.base = true
  in_device : ∀ cell ∈ s.dev.mem, cell.1 < s.cfg.deviceSize

/-- `t` is `s` but for the buffers, `LAST_STATUS`, the device, the draws, the engine and what was added
to the trace and the log: what a command that neither polls nor starts a RUN can change short of a halt.
A field's default proves it for an update that leaves alone what the field speaks of. -/
structure Quiet (s t : State) : Prop where
  cfg : t.cfg = s.cfg := by rfl
  addr : t.addr = s.addr := by rfl
  phase : t.phase = s.phase := by rfl
  err : t.err = s.err := by rfl
  fault : t.fault = s.fault := by rfl
  pass : t.pass = s.pass := by rfl
  pollRdy : t.pollRdy = s.pollRdy := by rfl
  opc : t.opc = s.opc := by rfl
  pollCnt : t.pollCnt = s.pollCnt := by rfl
  runT : t.runT = s.runT := by rfl
  inbox : t.inbox = s.inbox := by rfl
  frame : t.frame = s.frame := by rfl
  trace : s.trace <+: t.trace := by exact List.prefix_rfl
  log : s.log <+: t.log := by exact List.prefix_rfl
  engine_idle : s.ks = .uninit ∧ s.aes = none → t.ks = .uninit ∧ t.aes = none := by exact id
  array : s.ArrayOk → t.ArrayOk := by exact fun h => ⟨h.wf, h.in_device⟩

/-- A quiet change that logs nothing: all a command does before it halts. -/
structure Silent (s t : State) : Prop extends Quiet s t where
  log_eq : t.log = s.log := by rfl

theorem Quiet.trans {s t u : State} (h : Quiet s t) (k : Quiet t u) : Quiet s u where
  cfg := k.cfg.trans h.cfg
  addr := k.addr.trans h.addr
  phase := k.phase.trans h.phase
  err := k.err.trans h.err
  fault := k.fault.trans h.fault
  pass := k.pass.trans h.pass
  pollRdy := k.pollRdy.trans h.pollRdy
  opc := k.opc.trans h.opc
  pollCnt := k.pollCnt.trans h.pollCnt
  runT := k.runT.trans h.runT
  inbox := k.inbox.trans h.inbox
  frame := k.frame.trans h.frame
  trace := h.trace.trans k.trace
  log := h.log.trans k.log
  engine_idle := k.engine_idle ∘ h.engine_idle
  array := k.array ∘ h.array

theorem Silent.trans {s t u : State} (h : Silent s t) (k : Silent t u) : Silent s u :=
  { h.toQuiet.trans k.toQuiet with log_eq := k.log_eq.trans h.log_eq }

theorem Silent.refl (s : State) : Silent s s := {}

/-! ## Transactions -/

section
variable {d : CommandDescriptor} {k : Kind} {a : Word} {out : List Byte} {s : State}

/-- The bytes a transaction may write lie within the device (20_memory R63). -/
structure WritesWithin (k : Kind) (a : Word) (out : List Byte) (c : Config) : Prop where
  erase : k = .sectorErase → a.toNat + c.sectorSize ≤ c.deviceSize
  program : k = .quadPageProgram → a.toNat + out.length ≤ c.deviceSize

theorem Device.mem_sectorErase {dev : Device} {n a : Nat} {cell : Host.Cell}
    (h : cell ∈ (dev.sectorErase n a).mem) : cell.1 < a + n ∨ cell ∈ dev.mem := by
  unfold Device.sectorErase at h
  split at h
  · exact (Memory.mem_writeBytes h).imp (by simp) id
  · exact .inr h

theorem Device.mem_pageProgram {dev : Device} {a : Nat} {v : List Byte} {cell : Host.Cell}
    (h : cell ∈ (dev.pageProgram a v).mem) : cell.1 < a + v.length ∨ cell ∈ dev.mem := by
  unfold Device.pageProgram at h
  split at h
  · exact (Memory.mem_writeBytes h).imp (by simp [Device.memRead]) id
  · exact .inr h

theorem deviceRespond_in_device (hw : WritesWithin k a out s.cfg)
    (h : ∀ cell ∈ s.dev.mem, cell.1 < s.cfg.deviceSize) :
    ∀ cell ∈ (deviceRespond k a out s).2.dev.mem, cell.1 < s.cfg.deviceSize := by
  intro cell hc
  cases k with
  | readStatus =>
    by_cases hb : s.dev.busy = true <;> simp [deviceRespond, readStatusResponse, hb] at hc <;>
      exact h cell hc
  | writeEnable => exact h cell hc
  | sectorErase =>
    rcases Device.mem_sectorErase hc with hlt | hold
    · exact hlt.trans_le (hw.erase rfl)
    · exact h cell hold
  | quadPageProgram =>
    rcases Device.mem_pageProgram hc with hlt | hold
    · exact hlt.trans_le (hw.program rfl)
    · exact h cell hold
  | quadIoRead => exact h cell hc

theorem txnRun_in_device (hw : WritesWithin k a out s.cfg)
    (h : ∀ cell ∈ s.dev.mem, cell.1 < s.cfg.deviceSize) :
    ∀ cell ∈ (txnRun d k a out s).state.dev.mem, cell.1 < s.cfg.deviceSize := by
  by_cases hok : s.okAt 0 = true
  · rw [txnRun_dev_ok hok]
    exact deviceRespond_in_device hw h
  · rw [txnRun_dev_failed (by simpa using hok)]
    simp [havocDevice]

theorem txnRun_silent (hw : WritesWithin k a out s.cfg) :
    Silent s (txnRun d k a out s).state := by
  obtain ⟨dev, hi, wip, heq⟩ := txnRun_frame d k a out s
  have hcfg : (txnRun d k a out s).state.cfg = s.cfg := by rw [heq]
  have harray (h : s.ArrayOk) : (txnRun d k a out s).state.ArrayOk :=
    ⟨txnRun_wf h.wf, hcfg ▸ txnRun_in_device hw h.in_device⟩
  rw [heq] at harray ⊢
  exact { trace := List.prefix_append _ _, array := harray }

variable {t : TxnDone}

theorem statusTxn_silent (h : statusTxn s = .ok t) : Silent s t.state := by
  rw [statusTxn_eq] at h
  cases h
  exact txnRun_silent ⟨nofun, nofun⟩

theorem enableTxn_silent (h : enableTxn s = .ok t) : Silent s t.state := by
  obtain ⟨-, rfl⟩ := enableTxn_eq_ok.1 h
  exact txnRun_silent ⟨nofun, nofun⟩

theorem eraseTxn_silent (h : eraseTxn a s = .ok t) : Silent s t.state := by
  obtain ⟨-, hfit, -, rfl⟩ := eraseTxn_eq_ok.1 h
  exact txnRun_silent ⟨fun _ => hfit, nofun⟩

theorem programTxn_silent {payload : Except Fault (List Byte)}
    (hlen : ∀ v, payload = .ok v → v.length = pageSize) (h : programTxn a payload s = .ok t) :
    Silent s t.state := by
  obtain ⟨v, hv, -, hfit, -, rfl⟩ := programTxn_eq_ok.1 h
  exact txnRun_silent ⟨nofun, fun _ => hlen v hv ▸ hfit⟩

theorem readTxn_silent {m : Option Byte} (h : readTxn m a s = .ok t) : Silent s t.state := by
  obtain ⟨-, -, rfl⟩ := readTxn_eq_ok.1 h
  exact txnRun_silent ⟨nofun, nofun⟩

end

/-! ## Commands -/

/-- How a command ends that neither polls nor starts a RUN: completed, or halted with one of the errors
of 60_exceptions R300 that such a command raises. -/
inductive Ends (s : State) : State → Prop
  | done {t} (h : Quiet s t) : Ends s t
  | halted {u e} (h : Silent s u) (he : e ≠ .deviceBusyTimeout) : Ends s (u.raise e)

section
variable {s t : State}

theorem bufWrite_silent (b : BufId) (off : Nat) (v : List Byte) (s : State) :
    Silent s (bufWrite b off v s) := {}

theorem bufUndef_silent (b : BufId) (off n : Nat) (s : State) : Silent s (bufUndef b off n s) := {}

theorem bufRead_length {b : BufId} {off n : Nat} {v : List Byte} (h : bufRead b off n s = .ok v)
    (hn : off + n ≤ 64) : v.length = n := by
  unfold bufRead at h
  split at h
  · next hv => cases h; exact Buffer.bytes_length hv hn
  · cases h

theorem engineCommand_ends {f : List Col → AesState → AesState} {tag : DumpTag} {src dst : BufId}
    {n : Nat} (h : engineCommand f tag src dst n s = .next t) : Ends s t := by
  unfold engineCommand at h
  split at h
  · cases h
    exact .done (Silent.refl s).toQuiet
  · obtain ⟨input, -, hend⟩ := guardFault_eq_next.1 h
    rw [engineCall_eq] at hend
    cases hend
    have hcall : Silent s s.engineFinal.dropEngine := { engine_idle := fun _ => ⟨rfl, rfl⟩ }
    unfold engineEnd
    split
    · exact .done ((hcall.trans (bufWrite_silent ..)).toQuiet.trans { log := List.prefix_append _ _ })
    · exact .halted (hcall.trans (bufUndef_silent ..)) nofun

/-- The two endings of an XACT (42_transport R209). -/
theorem xact_ends {c : Except Fault TxnDone} {onOk : List Byte → State → State}
    {onFail : State → State} (hc : ∀ d, c = .ok d → Silent s d.state)
    (hok : ∀ v u, Silent u (onOk v u)) (hfail : ∀ u, Silent u (onFail u))
    (h : guardFault c (finishTxn onOk onFail) = .next t) : Ends s t := by
  obtain ⟨d, hd, hfin⟩ := guardFault_eq_next.1 h
  cases hfin
  split
  · exact .done ((hc d hd).trans (hok ..)).toQuiet
  · exact .halted ((hc d hd).trans (hfail ..)) nofun

/-- A frame is its transaction and nothing else. -/
theorem frameDone_silent {c : Except Fault TxnDone} (hc : ∀ d, c = .ok d → Silent s d.state)
    (h : guardFault c frameDone = .next t) : Silent s t := by
  obtain ⟨d, hd, hdone⟩ := guardFault_eq_next.1 h
  cases hdone
  exact hc d hd

theorem exec_frame_silent {i : Instr} (hi : i.isFrame = true) (hwf : i.WellFormed)
    (h : exec i s = .next t) : Silent s t := by
  cases i with
  | flashReadStatus => exact frameDone_silent (fun _ => statusTxn_silent) h
  | flashWriteEnable => exact frameDone_silent (fun _ => enableTxn_silent) h
  | flashSectorErase a => exact frameDone_silent (fun _ => eraseTxn_silent) h
  | flashQuadPageProgram a data =>
    have hlen : ∀ v, Except.ok (ε := Fault) data = .ok v → v.length = pageSize := by
      rintro v ⟨⟩
      exact of_decide_eq_true hwf
    exact frameDone_silent (fun _ => programTxn_silent hlen) h
  | flashQuadIoRead a mode => exact frameDone_silent (fun _ => readTxn_silent) h
  | _ => cases hi

/-- Every instruction but POLL and RUN completes quietly or halts. -/
theorem exec_ends {i : Instr} (hwf : i.WellFormed) (hpoll : i ≠ .poll) (hrun : i ≠ .run)
    (h : exec i s = .next t) : Ends s t := by
  cases i with
  | enc src dst n => exact engineCommand_ends h
  | dec src dst n => exact engineCommand_ends h
  | xactReadStatus =>
    exact xact_ends (fun _ => statusTxn_silent) (fun _ _ => {}) Silent.refl h
  | xactWriteEnable =>
    exact xact_ends (fun _ => enableTxn_silent) (fun _ => Silent.refl) Silent.refl h
  | xactSectorErase =>
    exact xact_ends (fun _ => eraseTxn_silent) (fun _ => Silent.refl) Silent.refl h
  | xactQuadPageProgram b =>
    have hlen (v : List Byte) (hv : bufRead b 0 pageSize s = .ok v) : v.length = pageSize :=
      bufRead_length hv le_rfl
    exact xact_ends (fun _ => programTxn_silent hlen) (fun _ => Silent.refl) Silent.refl h
  | xactQuadIoRead b =>
    exact xact_ends (fun _ => readTxn_silent) (fun v => bufWrite_silent b 0 v)
      (bufUndef_silent b 0 pageSize) h
  | poll => exact absurd rfl hpoll
  | chkff b =>
    obtain ⟨v, -, hend⟩ := guardFault_eq_next.1 h
    cases hend
    split
    · exact .done (Silent.refl s).toQuiet
    · exact .halted (Silent.refl s) nofun
  | fill b =>
    cases h
    exact .done (bufWrite_silent ..).toQuiet
  | cmp x y =>
    obtain ⟨u, -, hy⟩ := guardFault_eq_next.1 h
    obtain ⟨v, -, hend⟩ := guardFault_eq_next.1 hy
    cases hend
    split
    · exact .done (Silent.refl s).toQuiet
    · exact .halted (Silent.refl s) nofun
  | run => exact absurd rfl hrun
  | flashReadStatus | flashWriteEnable | flashSectorErase | flashQuadPageProgram | flashQuadIoRead =>
    exact .done (exec_frame_silent rfl hwf h).toQuiet

theorem pollTxn_silent (s : State) : Silent s (pollTxn s).state :=
  txnRun_silent ⟨nofun, nofun⟩

end

end Sys2Proof.Machine
end

section
/-! The invariant of the machine: every operation a step is made of keeps it, and it holds at launch. -/

namespace Sys2Proof.Machine

section
variable {s t : State}

theorem State.Inv.arrayOk (h : s.Inv) : s.ArrayOk := ⟨h.mem_wf, h.mem_in_device⟩

theorem State.Inv.of_quiet (h : s.Inv) (q : Quiet s t) : t.Inv where
  mem_wf := (q.array h.arrayOk).wf
  mem_in_device := (q.array h.arrayOk).in_device
  err_halted := by rw [q.err, q.phase]; exact h.err_halted
  fault_halted := by rw [q.fault, q.phase]; exact h.fault_halted
  timeout_bounded := by rw [q.err, q.cfg]; exact h.timeout_bounded
  engine_idle := q.engine_idle h.engine_idle
  run_going := by rw [q.phase, q.opc, q.pass]; exact h.run_going
  poll_going := by rw [q.phase, q.pollRdy, PollsWithin, q.cfg, q.pollCnt]; exact h.poll_going
  run_polls := by rw [q.phase, q.opc]; exact h.run_polls
  pass_done := by rw [q.pass, q.opc]; exact h.pass_done

/-- The invariant does not speak of what the host and the bus put before the core. -/
theorem State.Inv.inputs (h : s.Inv) (a : Word) (moves : List HostAction) (f : Option (List Byte)) :
    ({ s with addr := a, inbox := moves, frame := f } : State).Inv :=
  { h with }

theorem State.Inv.raise (h : s.Inv) {e : CoreError}
    (he : e = .deviceBusyTimeout → s.cfg.maxPolls ≠ none) : (s.raise e).Inv :=
  { h with
    err_halted := by simp
    fault_halted := by simp
    timeout_bounded := fun hc => he (Option.some.inj hc)
    run_going := nofun
    poll_going := nofun
    run_polls := nofun }

theorem State.Inv.of_ends (h : s.Inv) (k : Ends s t) : t.Inv := by
  cases k with
  | done q => exact h.of_quiet q
  | halted q he => exact (h.of_quiet q.toQuiet).raise fun hc => absurd hc he

/-- A core that is not halted has neither code nor indicator, so it may move to any phase but Halted. -/
theorem State.Inv.clear_iff (h : s.Inv) (hlive : s.phase ≠ .halted) {p : Phase} (hp : p ≠ .halted) :
    (s.err ≠ none ↔ p = .halted) ∧ (s.fault = true ↔ p = .halted) :=
  ⟨iff_of_false (mt h.err_halted.1 hlive) hp, iff_of_false (mt h.fault_halted.1 hlive) hp⟩

/-! ## POLL -/

theorem pollingPhase_ne_halted (p : Phase) : pollingPhase p ≠ .halted := by
  rcases p with _ | ⟨_ | _ | _⟩ | _ <;> nofun

theorem pollingPhase_inRun (p : Phase) : (pollingPhase p).inRun = p.inRun := by
  rcases p with _ | ⟨_ | _ | _⟩ | _ <;> rfl

theorem inRun_of_pollingPhase_eq_runPoll {p : Phase} (h : pollingPhase p = .running .runPoll) :
    p.inRun = true := by
  rw [← pollingPhase_inRun, h]
  rfl

theorem polledPhase_eq_halted {p : Phase} : polledPhase p = .halted ↔ p = .halted := by
  rcases p with _ | ⟨_ | _ | _⟩ | _ <;> simp [polledPhase]

theorem polledPhase_inRun (p : Phase) : (polledPhase p).inRun = p.inRun := by
  rcases p with _ | ⟨_ | _ | _⟩ | _ <;> rfl

theorem polledPhase_not_polling (p : Phase) :
    polledPhase p ≠ .running .poll ∧ polledPhase p ≠ .running .runPoll := by
  rcases p with _ | ⟨_ | _ | _⟩ | _ <;> exact ⟨nofun, nofun⟩

theorem State.Inv.pollBegin (h : s.Inv) (hlive : s.phase ≠ .halted)
    (hprog : s.phase.inRun = true → program s.opc = some .poll) : s.pollBegin.Inv :=
  { h with
    err_halted := (h.clear_iff hlive (pollingPhase_ne_halted _)).1
    fault_halted := (h.clear_iff hlive (pollingPhase_ne_halted _)).2
    run_going := fun hr => h.run_going (pollingPhase_inRun s.phase ▸ hr)
    poll_going := fun _ => ⟨rfl, fun m _ => Nat.zero_le m⟩
    run_polls := fun hp => hprog (inRun_of_pollingPhase_eq_runPoll hp) }

theorem State.Inv.pollCounted (h : s.Inv) (hbound : s.cfg.maxPolls ≠ some s.pollCnt.toNat) :
    ({ s with pollCnt := s.pollCnt + 1 } : State).Inv :=
  { h with
    poll_going := fun hp => by
      obtain ⟨hrdy, hwithin⟩ := h.poll_going hp
      refine ⟨hrdy, fun m hm => ?_⟩
      have hle : s.pollCnt.toNat ≤ m := hwithin m hm
      have hne : s.pollCnt.toNat ≠ m := fun heq => hbound (heq ▸ hm)
      show (s.pollCnt + 1).toNat ≤ m
      have hsucc : (s.pollCnt + 1).toNat ≤ s.pollCnt.toNat + 1 := by
        rw [BitVec.toNat_add]
        exact Nat.mod_le _ _
      omega }

theorem State.Inv.pollReady (h : s.Inv) : s.pollReady.Inv :=
  { h with
    err_halted := h.err_halted.trans polledPhase_eq_halted.symm
    fault_halted := h.fault_halted.trans polledPhase_eq_halted.symm
    run_going := fun hr => h.run_going (polledPhase_inRun s.phase ▸ hr)
    poll_going := fun hp => absurd hp (not_or.2 (polledPhase_not_polling s.phase))
    run_polls := fun hp => absurd hp (polledPhase_not_polling s.phase).2 }

theorem State.Inv.pollResult {d : TxnDone} (h : d.state.Inv)
    (hbound : d.state.cfg.maxPolls ≠ some d.state.pollCnt.toNat) : (pollResult d).Inv := by
  have hcount := h.pollCounted hbound
  unfold Machine.pollResult
  split
  · have hstatus := hcount.of_quiet (t := { d.state with
      pollCnt := d.state.pollCnt + 1, lastStatus := d.input.headD 0 }) {}
    split
    · exact hstatus
    · exact hstatus.pollReady
  · exact hcount.raise nofun

theorem State.Inv.pollStep (h : s.Inv) (hs : pollStep s = .next t) : t.Inv := by
  rcases pollStep_eq_next.1 hs with ⟨hm, rfl⟩ | ⟨hbound, -, rfl⟩
  · exact h.raise fun _ => by simp [hm]
  · have q := (pollTxn_silent s).toQuiet
    exact (h.of_quiet q).pollResult (by rwa [q.cfg, q.pollCnt])

/-! ## RUN -/

theorem State.Inv.execRun (h : s.Inv) (hlive : s.phase ≠ .halted) (hs : execRun s = .next t) :
    t.Inv := by
  cases hs
  exact
    { h with
      err_halted := (h.clear_iff hlive (p := .running .run) nofun).1
      fault_halted := (h.clear_iff hlive (p := .running .run) nofun).2
      run_going := fun _ => ⟨Nat.zero_lt_succ 12, rfl⟩
      poll_going := nofun
      run_polls := nofun
      pass_done := nofun }

/-- A pass with the program completed (44_orchestrator R275). -/
theorem State.Inv.runPass (h : s.Inv) (hlive : s.phase ≠ .halted) {opc : Fin 14} (h13 : opc = 13) :
    ({ s with opc := opc } : State).runPass.Inv :=
  { h with
    err_halted := (h.clear_iff hlive (p := .idle) nofun).1
    fault_halted := (h.clear_iff hlive (p := .idle) nofun).2
    run_going := nofun
    poll_going := nofun
    run_polls := nofun
    pass_done := fun _ => h13 }

/-- Between two commands of a RUN, `OPC` may be at any command left. -/
theorem State.Inv.runOpc (h : s.Inv) (hp : s.phase = .running .run) {opc : Fin 14} (hne : opc ≠ 13) :
    ({ s with opc := opc } : State).Inv := by
  have hpass : s.pass = false := (h.run_going (by rw [hp]; rfl)).2
  have hlt : opc.val < 13 := by omega
  exact
    { h with
      run_going := fun _ => ⟨hlt, hpass⟩
      run_polls := fun hr => by simp [hp] at hr
      pass_done := fun ht => by simp [hpass] at ht }

theorem State.Inv.runAdvance (h : s.Inv) (hp : s.phase = .running .run) : s.runAdvance.Inv := by
  simp only [State.runAdvance]
  split
  · next h13 => exact h.runPass (by simp [hp]) h13
  · next hne => exact h.runOpc hp hne

theorem State.Inv.afterRunStep (h : s.Inv) : (afterRunStep s).Inv := by
  unfold Machine.afterRunStep
  split
  · next hp => exact h.runAdvance hp
  all_goals exact h

/-- `program` ends where `OPC` is 13. -/
theorem program_eq_none {opc : Fin 14} : program opc = none ↔ opc = 13 := by
  revert opc; decide

theorem program_ok {opc : Fin 14} {i : Instr} (h : program opc = some i) :
    i.WellFormed ∧ i ≠ .run := by
  have key : ∀ opc, ∀ i ∈ program opc, i.WellFormed ∧ i ≠ .run := by decide
  exact key opc i h

/-! ## A step -/

/-- Where a POLL or a RUN can begin: never in a halted core, and inside RUN only where the program has
it. -/
def StartsAllowed (i : Instr) (s : State) : Prop :=
  s.phase ≠ .halted ∧ (s.phase.inRun = true → program s.opc = some i)

theorem startsAllowed_of_idle {i : Instr} (hp : s.phase = .idle) : StartsAllowed i s :=
  ⟨by simp [hp], by simp [hp, Phase.inRun]⟩

theorem State.Inv.exec {i : Instr} (h : s.Inv) (hwf : i.WellFormed)
    (hstart : i = .poll ∨ i = .run → StartsAllowed i s) (hx : exec i s = .next t) : t.Inv := by
  by_cases hpoll : i = .poll
  · subst hpoll
    obtain ⟨hlive, hprog⟩ := hstart (.inl rfl)
    exact (h.pollBegin hlive hprog).pollStep hx
  by_cases hrun : i = .run
  · subst hrun
    exact h.execRun (hstart (.inr rfl)).1 hx
  exact h.of_ends (exec_ends hwf hpoll hrun hx)

end

/-- Settles O53, by the cases of a step: each operation the step is made of keeps the invariant. -/
theorem invStep : Obligations.InvStep := by
  intro s t h hs
  cases stepCase_of_step hs with
  | frame hf hd hx =>
    obtain ⟨hi, hwf⟩ := decodeFrame_ok hd
    exact (h.inputs s.addr s.inbox none).of_quiet (exec_frame_silent hi hwf hx).toQuiet
  | waiting | halted => exact h
  | writeAddr => exact h.inputs _ _ s.frame
  | @command w rest i _ hf hp hi hd hx =>
    exact (h.inputs s.addr rest s.frame).exec (decodeCommand_wellFormed hd)
      (fun _ => startsAllowed_of_idle hp) hx
  | polling hf hp hx => exact h.pollStep hx
  | pollingInRun hf hp hx => exact (h.pollStep hx).afterRunStep
  | program hf hp hi hx =>
    exact (h.exec (program_ok hi).1 (fun _ => ⟨by simp [hp], fun _ => hi⟩) hx).afterRunStep
  | programEnd hf hp hi =>
    have hlt : s.opc.val < 13 := (h.run_going (by rw [hp]; rfl)).1
    simp [program_eq_none.1 hi] at hlt

/-- The launch state meets the invariant: nothing has happened yet (10_state R43). -/
theorem State.Inv.launch (c : Config) : (State.launch c).Inv where
  mem_wf := rfl
  mem_in_device := nofun
  err_halted := iff_of_false (fun h => h rfl) nofun
  fault_halted := iff_of_false nofun nofun
  timeout_bounded := nofun
  engine_idle := ⟨rfl, rfl⟩
  run_going := nofun
  poll_going := nofun
  run_polls := nofun
  pass_done := nofun

/-- Settles O52: `State.reset` is the launch state under one configuration. -/
theorem invAtLaunch : Obligations.InvAtLaunch :=
  ⟨State.Inv.launch, State.Inv.launch _⟩

end Sys2Proof.Machine
end

section
/-! `ERR` and `FAULT` are written by the halt alone (10_state R27, R28). -/

namespace Sys2Proof.Machine

section
variable {s t : State}

theorem errCode_eq_zero {e : Option CoreError} : errCode e = 0 ↔ e = none := by
  rcases e with _ | _ | _ | _ | _ | _ <;> decide

/-- Only a frame moves a halted core, and it leaves the error code and the indicator alone. -/
theorem step_of_halted (hp : s.phase = .halted) (hs : step s = .next t) :
    t.err = s.err ∧ t.fault = s.fault := by
  cases stepCase_of_step hs with
  | frame hf hd hx =>
    obtain ⟨hi, hwf⟩ := decodeFrame_ok hd
    have q := exec_frame_silent hi hwf hx
    exact ⟨q.err, q.fault⟩
  | halted => exact ⟨rfl, rfl⟩
  | waiting _ hp' | writeAddr _ hp' | command _ hp' | polling _ hp' | pollingInRun _ hp'
  | program _ hp' | programEnd _ hp' => simp [hp] at hp'

theorem State.Inv.err_eq_none (h : s.Inv) (hp : s.phase ≠ .halted) : s.err = none :=
  not_not.1 (mt h.err_halted.1 hp)

theorem State.Inv.fault_eq_false (h : s.Inv) (hp : s.phase ≠ .halted) : s.fault = false :=
  eq_false_of_ne_true (mt h.fault_halted.1 hp)

end

/-- Settles O56: the invariant ties `ERR` and `FAULT` to the phase before and after the step, and a step
of a halted core writes neither. -/
theorem errorIsWrittenOnce : Obligations.ErrorIsWrittenOnce := by
  intro s t h hs
  have ht : t.Inv := invStep s t h hs
  refine ⟨?_, ht.fault_halted, ?_, ?_, fun hp _ => ⟨h.err_eq_none hp, h.fault_eq_false hp⟩⟩
  · rw [errCode_eq_zero, ne_eq, ← ht.err_halted, not_not]
  · exact fun he => (step_of_halted (h.err_halted.1 he) hs).1
  · exact fun hf => (step_of_halted (h.fault_halted.1 hf) hs).2.trans hf

end Sys2Proof.Machine
end

section
/-! No run changes the configuration or takes from the trace or the log (10_state R21, R24, R38). -/

namespace Sys2Proof.Machine

/-- What every step keeps from any state: the configuration; the trace and the log, which only grow;
`ADDR`, which only the host writes, with a move it still had to make. -/
structure History (s t : State) : Prop where
  cfg : t.cfg = s.cfg := by rfl
  trace : s.trace <+: t.trace := by exact List.prefix_rfl
  log : s.log <+: t.log := by exact List.prefix_rfl
  addr : t.addr = s.addr ∨ .writeAddr t.addr ∈ s.inbox := by exact .inl rfl
  inbox : t.inbox ⊆ s.inbox := by exact List.Subset.refl _

section
variable {s t u : State}

theorem History.trans (h : History s t) (k : History t u) : History s u where
  cfg := k.cfg.trans h.cfg
  trace := h.trace.trans k.trace
  log := h.log.trans k.log
  inbox := List.Subset.trans k.inbox h.inbox
  addr := by
    rcases k.addr with hk | hk
    · rw [hk]; exact h.addr
    · exact .inr (h.inbox hk)

theorem Quiet.history (q : Quiet s t) : History s t :=
  { q with addr := .inl q.addr, inbox := q.inbox ▸ List.Subset.refl _ }

theorem raise_history (s : State) (e : CoreError) : History s (s.raise e) :=
  { log := List.prefix_append _ _ }

theorem Ends.history (k : Ends s t) : History s t := by
  cases k with
  | done q => exact q.history
  | halted q _ => exact q.history.trans (raise_history _ _)

theorem pollResult_history (d : TxnDone) : History d.state (pollResult d) := by
  unfold pollResult
  split
  · split
    · exact {}
    · exact {}
  · exact History.trans {} (raise_history _ _)

theorem pollStep_history (hs : pollStep s = .next t) : History s t := by
  rcases pollStep_eq_next.1 hs with ⟨-, rfl⟩ | ⟨-, -, rfl⟩
  · exact raise_history s _
  · exact (pollTxn_silent s).history.trans (pollResult_history _)

theorem exec_history {i : Instr} (hwf : i.WellFormed) (hx : exec i s = .next t) : History s t := by
  by_cases hpoll : i = .poll
  · subst hpoll
    exact History.trans (t := s.pollBegin) {} (pollStep_history hx)
  by_cases hrun : i = .run
  · subst hrun
    cases hx
    exact {}
  exact (exec_ends hwf hpoll hrun hx).history

theorem afterRunStep_history (s : State) : History s (afterRunStep s) := by
  unfold afterRunStep
  split
  · simp only [State.runAdvance]
    split
    · exact { log := List.prefix_append _ _ }
    · exact {}
  all_goals exact {}

theorem step_history (hs : step s = .next t) : History s t := by
  cases stepCase_of_step hs with
  | frame hf hd hx => exact History.trans {} (exec_history (decodeFrame_ok hd).2 hx)
  | waiting | halted => exact {}
  | writeAddr hf hp hi => exact { addr := by simp [hi], inbox := by simp [hi] }
  | @command w rest i _ hf hp hi hd hx =>
    have htake : History s { s with inbox := rest } := { inbox := by simp [hi] }
    exact htake.trans (exec_history (decodeCommand_wellFormed hd) hx)
  | polling hf hp hx => exact pollStep_history hx
  | pollingInRun hf hp hx => exact (pollStep_history hx).trans (afterRunStep_history _)
  | program hf hp hi hx =>
    exact (exec_history (program_ok hi).1 hx).trans (afterRunStep_history _)
  | programEnd => exact { log := List.prefix_append _ _ }

/-- A run of one step more is a step and the run from where it leads. -/
theorem core_run_succ {M : Host.Core} {n : Nat} {s t : M.State} (h : M.run (n + 1) s = .next t) :
    ∃ u, M.step s = .next u ∧ M.run n u = .next t := by
  rw [Host.Core.run] at h
  split at h
  · next u hu => exact ⟨u, hu, h⟩
  · cases h
  · cases h

theorem SafeRun.eq_of_zero (h : SafeRun 0 s t) : t = s := by
  cases h
  rfl

theorem SafeRun.succ {n : Nat} (h : SafeRun (n + 1) s t) :
    ∃ u, step s = .next u ∧ SafeRun n u t :=
  core_run_succ h

end

/-- Settles O58, by induction on the number of steps. -/
theorem runsKeepConfigurationAndHistory : Obligations.RunsKeepConfigurationAndHistory := by
  intro n s t hrun
  suffices h : History s t from ⟨h.cfg, h.trace, h.log, h.addr⟩
  induction n generalizing s with
  | zero =>
    obtain rfl : t = s := hrun.eq_of_zero
    exact {}
  | succ n ih =>
    obtain ⟨u, hstep, hrest⟩ := hrun.succ
    exact (step_history hstep).trans (ih u hrest)

end Sys2Proof.Machine
end

section
/-! The cells of a buffer (20_memory R61). -/

namespace Sys2Proof.Machine

theorem Buffer.getElem?_cells (v : Buffer) {off n : Nat} (h : off + n ≤ 64) {i : Nat} (hi : i < n) :
    ((v.toList.drop off).take n)[i]? = some v[off + i] := by
  have hlt : off + i < v.toList.length := by rw [Vector.length_toList]; omega
  rw [List.getElem?_take_of_lt hi, List.getElem?_drop, List.getElem?_eq_getElem hlt,
    Vector.getElem_toList]

theorem Buffer.length_cells (v : Buffer) {off n : Nat} (h : off + n ≤ 64) :
    ((v.toList.drop off).take n).length = n := by
  simp only [List.length_take, List.length_drop, Vector.length_toList]
  omega

theorem readCells_eq_none {cells : List (Option Byte)} : readCells cells = none ↔ none ∈ cells := by
  induction cells with
  | nil => simp [readCells]
  | cons c cells ih =>
    cases c with
    | none => simp [readCells]
    | some x => cases hr : readCells cells <;> simp [readCells, hr, ← ih]

theorem Buffer.bytes_eq_some_iff_cells {v : Buffer} {off n : Nat} (h : off + n ≤ 64) {l : List Byte} :
    v.bytes off n = some l ↔ l.length = n ∧ ∀ i, (hi : i < n) → v[off + i] = l[i]? := by
  have hcells := v.length_cells h
  rw [Buffer.bytes_eq_some]
  constructor
  · intro hl
    have hlen : l.length = n := by rw [← hcells, hl, List.length_map]
    refine ⟨hlen, fun i hi => ?_⟩
    have hcell := v.getElem?_cells h hi
    rw [hl, List.getElem?_map, List.getElem?_eq_getElem (hlen ▸ hi)] at hcell
    rw [List.getElem?_eq_getElem (hlen ▸ hi)]
    exact (Option.some.inj hcell).symm
  · rintro ⟨hlen, hl⟩
    refine List.ext_getElem? fun i => ?_
    by_cases hi : i < n
    · rw [v.getElem?_cells h hi, hl i hi, List.getElem?_map, List.getElem?_eq_getElem (hlen ▸ hi)]
      rfl
    · rw [List.getElem?_eq_none (by omega), List.getElem?_eq_none (by rw [List.length_map]; omega)]

theorem Buffer.bytes_eq_none_iff_cells {v : Buffer} {off n : Nat} (h : off + n ≤ 64) :
    v.bytes off n = none ↔ ∃ i, ∃ hi : i < n, v[off + i] = none := by
  unfold Buffer.bytes
  rw [readCells_eq_none, List.mem_iff_getElem?]
  constructor
  · rintro ⟨i, hcell⟩
    have hi : i < n := v.length_cells h ▸ (List.getElem?_eq_some_iff.1 hcell).1
    rw [v.getElem?_cells h hi] at hcell
    exact ⟨i, hi, Option.some.inj hcell⟩
  · rintro ⟨i, hi, hnone⟩
    exact ⟨i, by rw [v.getElem?_cells h hi, hnone]⟩

theorem Buffers.get_set (bs : Buffers) (b c : BufId) (v : Buffer) :
    (bs.set b v).get c = if c = b then v else bs.get c := by
  split
  · next h => rw [h, Buffers.get_set_same]
  · next h => exact Buffers.get_set_other bs v h

/-- Settles O18: the laws of the buffers' cells, put together. -/
theorem bufferCells : Obligations.BufferCells := by
  refine ⟨fun v off n h => ⟨fun l => Buffer.bytes_eq_some_iff_cells h,
    Buffer.bytes_eq_none_iff_cells h, ?_, Buffer.getElem_undef v off n⟩, Buffers.get_set⟩
  rintro l rfl
  exact Buffer.getElem_put v off l

end Sys2Proof.Machine
end

section
/-! The STAT word (10_state R25) and the launch state (10_state R43). -/

namespace Sys2Proof.Machine

/-- A field put above the bits of a word adds its value at its place. -/
theorem toNat_or_shiftLeft {acc x : Word} {n m k : Nat} (hacc : acc.toNat = n) (hx : x.toNat = m)
    (hlow : n < 2 ^ k) (hfit : m * 2 ^ k < 2 ^ 32) : (acc ||| x <<< k).toNat = n + m * 2 ^ k := by
  rw [BitVec.toNat_or, BitVec.toNat_shiftLeft, hacc, hx, Nat.shiftLeft_eq, Nat.mod_eq_of_lt hfit,
    ← Nat.shiftLeft_eq, Nat.or_comm, ← Nat.shiftLeft_add_eq_or_of_lt hlow, Nat.add_comm]

theorem Phase.code_lt (p : Phase) : p.code < 4 := by
  cases p <;> simp [Phase.code]

theorem errCode_lt (e : Option CoreError) : errCode e < 16 := by
  rcases e with _ | _ | _ | _ | _ | _ <;> decide

theorem toNat_flag (b : Bool) : ((BitVec.ofBool b).setWidth 32).toNat = b.toNat := by
  cases b <;> rfl

/-- The STAT word as a sum of its fields (10_state R25). -/
theorem State.statWord_toNat (s : State) :
    s.statWord.toNat = s.phase.code + errCode s.err * 2 ^ 4 + s.fault.toNat * 2 ^ 8 +
      s.pass.toNat * 2 ^ 9 + s.pollRdy.toNat * 2 ^ 10 + s.opc.val * 2 ^ 12 +
      s.lastStatus.toNat * 2 ^ 16 := by
  have hphase := s.phase.code_lt
  have herr := errCode_lt s.err
  have hfault := s.fault.toNat_lt
  have hpass := s.pass.toNat_lt
  have hrdy := s.pollRdy.toNat_lt
  have hstatus := s.lastStatus.isLt
  have small {n : Nat} (h : n < 16) : (BitVec.ofNat 32 n).toNat = n :=
    Nat.mod_eq_of_lt (by omega)
  have upToErr := toNat_or_shiftLeft (k := 4) (small (n := s.phase.code) (by omega)) (small herr)
    (by omega) (by omega)
  have upToFault := toNat_or_shiftLeft (k := 8) upToErr (toNat_flag s.fault) (by omega) (by omega)
  have upToPass := toNat_or_shiftLeft (k := 9) upToFault (toNat_flag s.pass) (by omega) (by omega)
  have upToRdy := toNat_or_shiftLeft (k := 10) upToPass (toNat_flag s.pollRdy) (by omega) (by omega)
  have upToOpc := toNat_or_shiftLeft (k := 12) upToRdy (small (n := s.opc.val) (by omega))
    (by omega) (by omega)
  exact toNat_or_shiftLeft (k := 16) upToOpc (BitVec.toNat_setWidth_of_le (by decide))
    (by omega) (by omega)

/-- A bit of a word by the number it is read as. -/
theorem getLsbD_eq_of_toNat {w : Word} {i : Nat} {b : Bool} (h : w.toNat / 2 ^ i % 2 = b.toNat) :
    w.getLsbD i = b := by
  rw [BitVec.getLsbD, Nat.testBit_eq_decide_div_mod_eq, h]
  cases b <;> rfl

theorem toNat_extractLsb' (w : Word) (lo len : Nat) :
    (w.extractLsb' lo len).toNat = w.toNat / 2 ^ lo % 2 ^ len := by
  rw [BitVec.extractLsb'_toNat, Nat.shiftRight_eq_div_pow]

/-- Settles O54, field by field from the word as a sum. -/
theorem statWordFields : Obligations.StatWordFields := by
  intro s
  have hword := s.statWord_toNat
  have hphase := s.phase.code_lt
  have herr := errCode_lt s.err
  have hfault := s.fault.toNat_lt
  have hpass := s.pass.toNat_lt
  have hrdy := s.pollRdy.toNat_lt
  have hstatus := s.lastStatus.isLt
  have window (lo len : Nat) {v : BitVec len} (h : s.statWord.toNat / 2 ^ lo % 2 ^ len = v.toNat) :
      s.statWord.extractLsb' lo len = v :=
    BitVec.eq_of_toNat_eq ((toNat_extractLsb' ..).trans h)
  have clear (lo len : Nat) (h : s.statWord.toNat / 2 ^ lo % 2 ^ len = 0) :
      s.statWord.extractLsb' lo len = 0 :=
    window lo len (h.trans BitVec.toNat_zero.symm)
  have unset (i : Nat) (h : s.statWord.toNat / 2 ^ i % 2 = 0) : s.statWord.getLsbD i = false :=
    getLsbD_eq_of_toNat h
  refine ⟨?phase, clear 2 2 ?_, ?err, getLsbD_eq_of_toNat ?_, getLsbD_eq_of_toNat ?_,
    getLsbD_eq_of_toNat ?_, unset 11 ?_, ?opc, window 16 8 ?_, clear 24 8 ?_⟩
  case phase =>
    have hcode : (s.statWord.extractLsb' 0 2).toNat = s.phase.code := by
      rw [toNat_extractLsb']
      omega
    rw [hcode]
    rfl
  case err =>
    have hcode : (s.statWord.extractLsb' 4 4).toNat = errCode s.err := by
      rw [toNat_extractLsb']
      omega
    rw [hcode]
    rcases s.err with _ | _ | _ | _ | _ | _ <;> rfl
  case opc =>
    rw [toNat_extractLsb']
    omega
  all_goals omega

theorem launch_buf (c : Config) (b : BufId) : (State.launch c).buf b = Buffer.blank := by
  cases b <;> rfl

/-- Settles O51: all but the STAT word and the buffers by the definition of `State.launch`. -/
theorem launchState : Obligations.LaunchState := by
  intro c
  refine ⟨rfl, rfl, rfl, rfl, rfl, rfl, rfl, rfl, rfl, rfl, rfl, ?_, fun b i hi => ?_, rfl, rfl, rfl,
    rfl, rfl, fun _ => rfl, rfl, rfl⟩
  · exact BitVec.eq_of_toNat_eq (by simp [State.statWord_toNat, State.launch, Phase.code, errCode])
  · simp [launch_buf, Buffer.blank]

end Sys2Proof.Machine
end

section
/-! What a transaction comes to once its status is drawn, for the commands and for the frames
(42_transport R200, R208, R209). -/

namespace Sys2Proof.Machine

section
variable {d : CommandDescriptor} {k : Kind} {a : Word} {out : List Byte} {s : State}

theorem Device.with_busy {dev : Device} {b : Bool} (h : dev.busy = b) :
    ({ dev with busy := b } : Device) = dev := by
  subst h
  rfl

/-- The device's answer to Read-Status (20_memory R74). -/
theorem deviceRespond_readStatus (a : Word) (out : List Byte) (s : State) :
    deviceRespond .readStatus a out s = ([s.statusNext], s.statusRead) := by
  cases hb : s.dev.busy
  · simp [deviceRespond, readStatusResponse, State.statusNext, State.statusRead, State.wipNext, hb,
      State.dropHi, Device.with_busy hb]
  · simp [deviceRespond, readStatusResponse, State.statusNext, State.statusRead, State.wipNext, hb,
      State.dropHi, State.dropWip]

/-- The device does not look at the draw of the transport status. -/
theorem deviceRespond_dropOk (k : Kind) (a : Word) (out : List Byte) (s : State) :
    deviceRespond k a out s.dropOk = ((deviceRespond k a out s).1, (deviceRespond k a out s).2.dropOk) := by
  cases k with
  | readStatus => simp only [deviceRespond_readStatus]; rfl
  | _ => rfl

theorem txnRun_good (hok : s.okAt 0 = true) :
    txnRun d k a out s = ⟨true, (deviceRespond k a out s).1,
      (deviceRespond k a out s).2.sent (txnRecord d k a out true (deviceRespond k a out s).1)⟩ := by
  simp only [txnRun, hok, if_true, deviceRespond_dropOk]
  rfl

theorem txnRun_failed (hok : s.okAt 0 = false) :
    txnRun d k a out s = ⟨false, (deviceRespond k a out s).1,
      ({ s with dev := lostDevice s.dev }).sent (txnRecord d k a out false [])⟩ := by
  simp only [txnRun, hok, deviceRespond_dropOk]
  rfl

variable {c : Except Fault TxnDone}

/-- A good XACT goes on with the device's answer. -/
theorem xact_good {onOk : List Byte → State → State} {onFail : State → State}
    (hc : c = .ok (txnRun d k a out s)) (hok : s.okAt 0 = true) :
    guardFault c (finishTxn onOk onFail) = .next (onOk (deviceRespond k a out s).1
      ((deviceRespond k a out s).2.sent (txnRecord d k a out true (deviceRespond k a out s).1))) := by
  rw [hc, txnRun_good hok]
  rfl

/-- A failed XACT halts with code 1 (42_transport R209). -/
theorem xact_failed {onOk : List Byte → State → State} {onFail : State → State}
    (hc : c = .ok (txnRun d k a out s)) (hok : s.okAt 0 = false) :
    guardFault c (finishTxn onOk onFail) = .next
      ((onFail (({ s with dev := lostDevice s.dev }).sent (txnRecord d k a out false []))).raise
        .busTransactionError) := by
  rw [hc, txnRun_failed hok]
  rfl

/-- A good frame is the device's answer and the record. -/
theorem frame_good (hc : c = .ok (txnRun d k a out s)) (hok : s.okAt 0 = true) :
    guardFault c frameDone = .next
      ((deviceRespond k a out s).2.sent (txnRecord d k a out true (deviceRespond k a out s).1)) := by
  rw [hc, txnRun_good hok]
  rfl

/-- A failed frame loses the device and leaves the core alone (log 12). -/
theorem frame_failed (hc : c = .ok (txnRun d k a out s)) (hok : s.okAt 0 = false) :
    guardFault c frameDone = .next
      (({ s with dev := lostDevice s.dev }).sent (txnRecord d k a out false [])) := by
  rw [hc, txnRun_failed hok]
  rfl

end

/-! ## The transactions of the table, their checks passed -/

section
variable {a : Word} {s : State}

theorem enableTxn_ready (hb : s.dev.busy = false) :
    enableTxn s = .ok (txnRun (descriptor s.cfg .writeEnable) .writeEnable 0 [] s) :=
  enableTxn_eq_ok.2 ⟨hb, rfl⟩

theorem eraseTxn_ready (hb : s.dev.busy = false) (hal : a.toNat % s.cfg.sectorSize = 0)
    (hfit : a.toNat + s.cfg.sectorSize ≤ s.cfg.deviceSize) :
    eraseTxn a s = .ok (txnRun (descriptor s.cfg .sectorErase) .sectorErase a [] s) :=
  eraseTxn_eq_ok.2 ⟨hal, hfit, hb, rfl⟩

theorem programTxn_ready {payload : Except Fault (List Byte)} {v : List Byte}
    (hb : s.dev.busy = false) (hv : payload = .ok v) (hal : a.toNat % pageSize = 0)
    (hfit : a.toNat + pageSize ≤ s.cfg.deviceSize) :
    programTxn a payload s = .ok (txnRun (descriptor s.cfg .quadPageProgram) .quadPageProgram a v s) :=
  programTxn_eq_ok.2 ⟨v, hv, hal, hfit, hb, rfl⟩

theorem readTxn_ready (m : Option Byte) (hb : s.dev.busy = false)
    (hfit : a.toNat + pageSize ≤ s.cfg.deviceSize) :
    readTxn m a s = .ok (txnRun (quadIoReadWith m) .quadIoRead a [] s) :=
  readTxn_eq_ok.2 ⟨hfit, hb, rfl⟩

theorem bufRead_eq_ok {b : BufId} {off n : Nat} {v : List Byte}
    (h : (s.buf b).bytes off n = some v) : bufRead b off n s = .ok v := by
  simp [bufRead, h]

theorem bufRead_eq_error {b : BufId} {off n : Nat} (h : (s.buf b).bytes off n = none) :
    bufRead b off n s = .error .unwrittenRead := by
  simp [bufRead, h]

end

/-! ## Read-Status and Write-Enable -/

theorem statusByte_wip (hi : BitVec 7) (wip : Bool) : (statusByte hi wip).getLsbD 0 = wip := by
  rw [statusByte, BitVec.getLsbD_append]
  cases wip <;> rfl

theorem statusByte_hi (hi : BitVec 7) (wip : Bool) : (statusByte hi wip).extractLsb' 1 7 = hi := by
  refine BitVec.eq_of_getLsbD_eq fun i hlt => ?_
  rw [BitVec.getLsbD_extractLsb', statusByte, BitVec.getLsbD_append]
  simp [hlt]

/-- Settles O30: the device's answer to Read-Status, and the two parts of the status byte. -/
theorem readStatusResult : Obligations.ReadStatusResult := by
  intro s hok
  have hcmd := xact_good (onOk := fun input t => { t with lastStatus := input.headD 0 })
    (onFail := id) (statusTxn_eq s) hok
  have hframe := frame_good (statusTxn_eq s) hok
  rw [deviceRespond_readStatus] at hcmd hframe
  exact ⟨hcmd, hframe, statusByte_wip .., statusByte_hi ..⟩

/-- Settles O31: Write-Enable changes the latch alone. -/
theorem writeEnableResult : Obligations.WriteEnableResult := fun _ hok hb =>
  ⟨xact_good (enableTxn_ready hb) hok, frame_good (enableTxn_ready hb) hok⟩

/-! ## Sector-Erase and Quad Page-Program -/

theorem Device.sectorErase_accepted {d : Device} {n a : Nat} (hw : d.wel = true) :
    d.sectorErase n a =
      { d.memWrite a (List.replicate n erased) with wel := false, busy := true } := by
  simp [Device.sectorErase, hw]

theorem Device.sectorErase_rejected {d : Device} {n a : Nat} (hw : d.wel = false) :
    d.sectorErase n a = d := by
  simp [Device.sectorErase, hw]

theorem Device.pageProgram_accepted {d : Device} {a : Nat} {v : List Byte} (hw : d.wel = true) :
    d.pageProgram a v =
      { d.memWrite a (List.zipWith (· &&& ·) (d.memRead a v.length) v) with
        wel := false, busy := true } := by
  simp [Device.pageProgram, hw]

theorem Device.pageProgram_rejected {d : Device} {a : Nat} {v : List Byte} (hw : d.wel = false) :
    d.pageProgram a v = d := by
  simp [Device.pageProgram, hw]

section
variable {s t : State}

theorem erased_of_dev {a : Nat} (hd : s.dev.mem.wf s.dev.base = true) (hw : s.dev.wel = true)
    (ht : t.dev = s.dev.sectorErase s.cfg.sectorSize a) : Erased s t a := by
  refine ⟨fun x => ?_, ?_⟩
  · rw [State.flashByte, ht]
    exact Device.readByte_sectorErase hd hw
  · rw [ht, Device.sectorErase_accepted hw]
    exact ⟨rfl, rfl, rfl⟩

theorem programmed_of_dev {a : Nat} {v : List Byte} (hd : s.dev.mem.wf s.dev.base = true)
    (hw : s.dev.wel = true) (hv : v.length = 64) (ht : t.dev = s.dev.pageProgram a v) :
    Programmed s t a v := by
  refine ⟨fun x => ?_, ?_⟩
  · rw [State.flashByte, ht, Device.readByte_pageProgram hd hw, hv]
    rfl
  · rw [ht, Device.pageProgram_accepted hw]
    exact ⟨rfl, rfl, rfl⟩

end

/-- Settles O32: the command and the frame make the same transaction, at `txnAddr` and at the operand. -/
theorem sectorEraseResult : Obligations.SectorEraseResult := by
  intro s i a hi hwf hok hb hal hfit
  have hx : exec i s = .next (({ s with dev := s.dev.sectorErase s.cfg.sectorSize a.toNat }).sent
      (goodRecord s.cfg .sectorErase a [] [])) := by
    have hc := eraseTxn_ready hb hal hfit
    rcases hi with ⟨rfl, rfl⟩ | rfl
    · exact xact_good hc hok
    · exact frame_good hc hok
  exact ⟨_, hx, rfl, fun hw => erased_of_dev hwf hw rfl, fun hw => Device.sectorErase_rejected hw⟩

/-- Settles O33: the command and the frame make the same transaction, with the buffer's bytes and with
the frame's. -/
theorem pageProgramResult : Obligations.PageProgramResult := by
  intro s i a v hi hwf hok hb hal hfit
  have hlen : v.length = 64 := by
    rcases hi with ⟨b, -, -, hv⟩ | ⟨-, hv⟩
    · exact Buffer.bytes_length hv le_rfl
    · exact hv
  have hx : exec i s = .next (({ s with dev := s.dev.pageProgram a.toNat v }).sent
      (goodRecord s.cfg .quadPageProgram a v [])) := by
    rcases hi with ⟨b, rfl, rfl, hv⟩ | ⟨rfl, -⟩
    · exact xact_good (programTxn_ready hb (bufRead_eq_ok hv) hal hfit) hok
    · exact frame_good (programTxn_ready hb rfl hal hfit) hok
  exact ⟨_, hx, rfl, fun hw => programmed_of_dev hwf hw hlen rfl,
    fun hw => Device.pageProgram_rejected hw⟩

/-! ## Quad-IO-Read -/

/-- The buffer that holds the bytes of a list, unwritten past its end. -/
def Buffer.ofBytes (v : List Byte) : Buffer := Vector.ofFn fun i => v[i.val]?

theorem Buffer.getElem_ofBytes (v : List Byte) (i : Nat) (h : i < 64) :
    (Buffer.ofBytes v)[i] = v[i]? := by
  simp [Buffer.ofBytes]

/-- Writing a whole page leaves nothing of what the buffer held. -/
theorem Buffer.put_page (buf : Buffer) {v : List Byte} (hv : v.length = 64) :
    buf.put 0 v = Buffer.ofBytes v := by
  ext1 i hi
  simp [Buffer.getElem_put, Buffer.getElem_ofBytes, hv, hi]

/-- The pages a buffer holds can be read back. -/
theorem Buffer.bytes_ofBytes {v : List Byte} (hv : v.length = 64) :
    (Buffer.ofBytes v).bytes 0 64 = some v := by
  rw [Buffer.bytes_eq_some_iff_cells (by omega)]
  exact ⟨hv, fun i hi => by simp [Buffer.getElem_ofBytes]⟩

theorem Buffer.undef_page (buf : Buffer) : buf.undef 0 64 = Vector.replicate 64 none := by
  ext1 i hi
  simp [Buffer.getElem_undef, hi]

theorem State.flashPage_length (s : State) (a : Nat) : (s.flashPage a).length = 64 := by
  simp [State.flashPage]

/-- What the device sends for a page is the page of the array (20_memory R78). -/
theorem memRead_page (s : State) (a : Nat) : s.dev.memRead a pageSize = s.flashPage a := by
  refine List.ext_getElem? fun i => ?_
  rw [Device.memRead, Memory.readBytes_getElem?, State.flashPage, List.getElem?_map]
  by_cases hi : i < 64
  · simp [hi, State.flashByte, Device.readByte]
  · simp [hi]

theorem exec_xactQuadIoRead_good {s : State} (b : BufId) (hok : s.okAt 0 = true)
    (hb : s.dev.busy = false) (hfit : s.txnAddr.toNat + pageSize ≤ s.cfg.deviceSize) :
    exec (.xactQuadIoRead b) s = .next
      (({ s with bufs := s.bufs.set b (Buffer.ofBytes (s.flashPage s.txnAddr.toNat)) }).sent
        (goodRecord s.cfg .quadIoRead s.txnAddr [] (s.flashPage s.txnAddr.toNat))) := by
  rw [← memRead_page,
    ← Buffer.put_page (s.buf b) ((congrArg _ (memRead_page ..)).trans (s.flashPage_length _))]
  exact xact_good (onOk := fun input t => bufWrite b 0 input t) (readTxn_ready _ hb hfit) hok

/-- Settles O34: the page the device sends is the array's; a whole buffer is written. -/
theorem quadIoReadResult : Obligations.QuadIoReadResult := by
  intro s hok hb
  refine ⟨fun b hfit => ?_, fun a m hfit => ?_⟩
  · rw [exec_xactQuadIoRead_good b hok hb hfit]
    have hpage : Buffer.ofBytes (s.flashPage s.txnAddr.toNat) =
        Vector.ofFn fun i => some (s.flashByte (s.txnAddr.toNat + i.val)) := by
      ext1 i hi
      simp [Buffer.getElem_ofBytes, State.flashPage, hi]
    rw [hpage]
  · rw [← memRead_page]
    exact frame_good (readTxn_ready m hb hfit) hok

/-! ## Failures -/

/-- Settles O37: each command and each frame whose checks pass makes one failed transaction. -/
theorem busErrorResult : Obligations.BusErrorResult := by
  intro s hok
  refine ⟨xact_failed (statusTxn_eq s) hok, frame_failed (statusTxn_eq s) hok, fun hb =>
    ⟨xact_failed (enableTxn_ready hb) hok, frame_failed (enableTxn_ready hb) hok,
      fun hal hfit => xact_failed (eraseTxn_ready hb hal hfit) hok,
      fun b v hal hfit hv => xact_failed (programTxn_ready hb (bufRead_eq_ok hv) hal hfit) hok,
      fun b hfit => ?_,
      fun x hal hfit => frame_failed (eraseTxn_ready hb hal hfit) hok,
      fun x v hal hfit => frame_failed (programTxn_ready hb rfl hal hfit) hok,
      fun x m hfit => frame_failed (readTxn_ready m hb hfit) hok⟩⟩
  rw [← Buffer.undef_page (s.buf b)]
  exact xact_failed (onFail := fun t => bufUndef b 0 pageSize t) (readTxn_ready _ hb hfit) hok

section
variable {d : CommandDescriptor} {k : Kind} {a : Word} {out : List Byte} {s : State}

theorem txn_busy (hb : s.dev.busy = true) (hk : k ≠ .readStatus) :
    txn d k a out s = .error .deviceBusyViolation := by
  simp [txn, hb, hk]

theorem eraseTxn_misaligned (hal : a.toNat % s.cfg.sectorSize ≠ 0) :
    eraseTxn a s = .error .misalignedErase := by
  simp [eraseTxn, hal]

theorem eraseTxn_outOfRange (hal : a.toNat % s.cfg.sectorSize = 0)
    (hout : s.cfg.deviceSize < a.toNat + s.cfg.sectorSize) :
    eraseTxn a s = .error .addressOutOfRange := by
  simp [eraseTxn, hal, hout]

theorem eraseTxn_busy (hb : s.dev.busy = true) (hal : a.toNat % s.cfg.sectorSize = 0)
    (hfit : a.toNat + s.cfg.sectorSize ≤ s.cfg.deviceSize) :
    eraseTxn a s = .error .deviceBusyViolation := by
  simp [eraseTxn, hal, Nat.not_lt.2 hfit, txn_busy hb]

variable {payload : Except Fault (List Byte)}

theorem programTxn_misaligned (hal : a.toNat % pageSize ≠ 0) :
    programTxn a payload s = .error .pageCrossing :=
  if_pos hal

theorem programTxn_outOfRange (hal : a.toNat % pageSize = 0)
    (hout : s.cfg.deviceSize < a.toNat + pageSize) :
    programTxn a payload s = .error .addressOutOfRange := by
  simp [programTxn, hal, hout]

theorem programTxn_busy {v : List Byte} (hb : s.dev.busy = true) (hal : a.toNat % pageSize = 0)
    (hfit : a.toNat + pageSize ≤ s.cfg.deviceSize) (hv : payload = .ok v) :
    programTxn a payload s = .error .deviceBusyViolation := by
  simp [programTxn, hal, Nat.not_lt.2 hfit, hv, txn_busy hb]

theorem readTxn_outOfRange {m : Option Byte} (hout : s.cfg.deviceSize < a.toNat + pageSize) :
    readTxn m a s = .error .addressOutOfRange := by
  simp [readTxn, hout]

theorem readTxn_busy {m : Option Byte} (hb : s.dev.busy = true)
    (hfit : a.toNat + pageSize ≤ s.cfg.deviceSize) :
    readTxn m a s = .error .deviceBusyViolation := by
  simp [readTxn, Nat.not_lt.2 hfit, txn_busy hb]

theorem guardFault_error {α : Type} {c : Except Fault α} {k : α → Result State} {f : Fault}
    (h : c = .error f) : guardFault c k = .fault f :=
  guardFault_eq_fault.2 (.inl h)

end

/-- Settles O36: each frame faults as the first check of its transaction that fails. -/
theorem checkOrderOfFrames : Obligations.CheckOrderOfFrames := fun s _ _ _ =>
  ⟨fun hal => guardFault_error (eraseTxn_misaligned hal),
    fun hal hout => guardFault_error (eraseTxn_outOfRange hal hout),
    fun hal => guardFault_error (programTxn_misaligned hal),
    fun hal hout => guardFault_error (programTxn_outOfRange hal hout),
    fun hout => guardFault_error (readTxn_outOfRange hout),
    fun hb => ⟨guardFault_error (txn_busy hb nofun),
      fun hal hfit => guardFault_error (eraseTxn_busy hb hal hfit),
      fun hal hfit => guardFault_error (programTxn_busy hb hal hfit rfl),
      fun hfit => guardFault_error (readTxn_busy hb hfit)⟩,
    _, guardFault_eq_next.2 ⟨_, statusTxn_eq s, rfl⟩⟩

/-! ## An unwritten source -/

theorem engineCommand_unwritten {f : List Col → AesState → AesState} {tag : DumpTag}
    {src dst : BufId} {n : Nat} {s : State} (hn : n ≠ 0)
    (h : (s.buf src).bytes 0 (blockBytes n) = none) :
    engineCommand f tag src dst n s = .fault .unwrittenRead := by
  rw [engineCommand, if_neg hn, bufRead_eq_error h]
  rfl

/-- Settles O23: an unwritten cell among those asked for makes the read of the source fail. -/
theorem unwrittenSourceFaults : Obligations.UnwrittenSourceFaults := by
  intro s src dst n i h hn hnone
  have hread : (s.buf src).bytes 0 (blockBytes n) = none :=
    (Buffer.bytes_eq_none_iff_cells (by simp only [blockBytes, blockSize]; omega)).2
      ⟨i, h, by simpa using hnone⟩
  have hne : n ≠ 0 := by omega
  exact ⟨engineCommand_unwritten hne hread, engineCommand_unwritten hne hread⟩

end Sys2Proof.Machine
end

section
/-! The polls of a POLL (43_busy_poll R240 to R247): what one good poll does, the state after any number of
busy ones, and how the POLL ends, for a POLL of the host and for one of RUN. -/

namespace Sys2Proof.Machine

/-! ## Steps put together -/

section
variable {s t u : State}

theorem SafeRun.zero (s : State) : SafeRun 0 s s := rfl

theorem SafeRun.step_cons {n : Nat} (hs : step s = .next t) (h : SafeRun n t u) :
    SafeRun (n + 1) s u := by
  simp only [SafeRun, Host.Core.run]
  rw [show Host.Core.step Sys2Proof.core s = .next t from hs]
  exact h

theorem SafeRun.trans {n m : Nat} (h : SafeRun n s t) (k : SafeRun m t u) : SafeRun (n + m) s u := by
  induction n generalizing s with
  | zero =>
    obtain rfl := h.eq_of_zero
    rwa [Nat.zero_add]
  | succ n ih =>
    obtain ⟨v, hstep, hrest⟩ := h.succ
    rw [Nat.add_right_comm]
    exact SafeRun.step_cons hstep (ih hrest)

theorem SafeRun.step_snoc {n : Nat} (h : SafeRun n s t) (hs : step t = .next u) :
    SafeRun (n + 1) s u :=
  h.trans (SafeRun.step_cons hs (SafeRun.zero u))

/-- Where the first step is the same, so is a run. -/
theorem SafeRun.of_step_eq {n : Nat} (hs : step t = step s) (h : SafeRun (n + 1) s u) :
    SafeRun (n + 1) t u := by
  obtain ⟨v, hstep, hrest⟩ := h.succ
  exact SafeRun.step_cons (hs.trans hstep) hrest

end

/-- After `n` draws the next ones are those from the `n`-th on. -/
theorem Draws.look_iterate_rest {α : Type} (free : Nat → α) (d : Draws α) (n i : Nat) :
    (Draws.rest^[n] d).look free i = d.look free (n + i) := by
  induction n generalizing i with
  | zero => rw [Nat.zero_add]; rfl
  | succ n ih =>
    rw [Function.iterate_succ_apply', Draws.look_rest, ih]
    congr 1
    omega

/-! ## One poll -/

/-- The state after a good poll, its status latched (43_busy_poll R240). -/
def State.polled (s : State) : State :=
  { s.statusRead.sent (goodRecord s.cfg .readStatus 0 [] [s.statusNext]) with
    pollCnt := s.pollCnt + 1
    lastStatus := s.statusNext }

theorem pollStep_good {s : State} (hbound : s.cfg.maxPolls ≠ some s.pollCnt.toNat)
    (hcount : s.pollCnt.toNat ≠ 2 ^ 32 - 1) (hok : s.okAt 0 = true) :
    pollStep s = .next (if s.wipNext then s.polled else s.polled.pollReady) := by
  refine pollStep_eq_next.2 (.inr ⟨hbound, fun h => hcount h.2, ?_⟩)
  have hbusy : statusBusy s.statusNext = s.wipNext := statusByte_wip ..
  rw [pollTxn, txnRun_good hok, deviceRespond_readStatus]
  simp only [pollResult, List.headD_cons, if_true, hbusy]
  rfl

/-! ## The state after a number of busy polls -/

/-- `LAST_STATUS` after `n` busy polls. -/
def State.busyStatus (s : State) : Nat → Byte
  | 0 => s.lastStatus
  | n + 1 => statusByte (s.hiAt n) true

/-- A POLL begun in `s`, after `n` polls of a busy device (43_busy_poll R246). -/
def State.busyPolls (s : State) (n : Nat) : State :=
  { s.pollBegin with
    pollCnt := BitVec.ofNat 32 n
    lastStatus := s.busyStatus n
    okDraws := Draws.rest^[n] s.okDraws
    hiDraws := Draws.rest^[n] s.hiDraws
    wipDraws := Draws.rest^[n] s.wipDraws
    trace := s.trace ++ (List.range n).map fun i =>
      goodRecord s.cfg .readStatus 0 [] [statusByte (s.hiAt i) true] }

/-- A POLL begun in `s`, Ready after `k` busy polls and a ready one (43_busy_poll R247). -/
def State.readyPoll (s : State) (k : Nat) : State :=
  { s with
    pollRdy := true
    pollCnt := BitVec.ofNat 32 (k + 1)
    lastStatus := statusByte (s.hiAt k) false
    dev := { s.dev with busy := false }
    okDraws := Draws.rest^[k + 1] s.okDraws
    hiDraws := Draws.rest^[k + 1] s.hiDraws
    wipDraws := if s.dev.busy then Draws.rest^[k + 1] s.wipDraws else s.wipDraws
    trace := s.trace ++ (List.range (k + 1)).map fun i =>
      goodRecord s.cfg .readStatus 0 [] [statusByte (s.hiAt i) (decide (i < k))] }

section
variable {s : State} {n k : Nat}

theorem State.busyPolls_zero (s : State) : s.busyPolls 0 = s.pollBegin := by
  simp [State.busyPolls, State.busyStatus, State.pollBegin]

theorem State.busyPolls_okAt (i : Nat) : (s.busyPolls n).okAt i = s.okAt (n + i) :=
  Draws.look_iterate_rest ..

theorem State.busyPolls_hiAt (i : Nat) : (s.busyPolls n).hiAt i = s.hiAt (n + i) :=
  Draws.look_iterate_rest ..

theorem State.busyPolls_wipAt (i : Nat) : (s.busyPolls n).wipAt i = s.wipAt (n + i) :=
  Draws.look_iterate_rest ..

theorem State.busyPolls_wipNext :
    (s.busyPolls n).wipNext = if s.dev.busy then s.wipAt n else false := by
  rw [State.wipNext, State.busyPolls_wipAt]
  rfl

theorem State.busyPolls_statusNext :
    (s.busyPolls n).statusNext = statusByte (s.hiAt n) (s.busyPolls n).wipNext := by
  rw [State.statusNext, State.busyPolls_hiAt]
  rfl

/-- Within the budget a poll of a POLL answers by what the device reports. -/
theorem pollStep_busyPolls (hn : PollBudget s (n + 1)) (hok : s.okAt n = true) :
    pollStep (s.busyPolls n) = .next
      (if (s.busyPolls n).wipNext then (s.busyPolls n).polled else (s.busyPolls n).polled.pollReady) := by
  obtain ⟨hlast, hbound⟩ := hn
  have hcnt : (s.busyPolls n).pollCnt.toNat = n := Nat.mod_eq_of_lt (by omega)
  refine pollStep_good ?_ (by omega) (by rwa [State.busyPolls_okAt])
  rw [hcnt]
  intro h
  have := hbound n h
  omega

theorem State.polled_busyPolls (hb : s.dev.busy = true) (hwip : s.wipAt n = true) :
    (s.busyPolls n).polled = s.busyPolls (n + 1) := by
  have hnext : (s.busyPolls n).wipNext = true := by simp [State.busyPolls_wipNext, hb, hwip]
  have hstatus : (s.busyPolls n).statusNext = statusByte (s.hiAt n) true := by
    rw [State.busyPolls_statusNext, hnext]
  rw [State.polled, State.statusRead, hnext, hstatus]
  simp [State.busyPolls, State.sent, State.busyStatus, Function.iterate_succ_apply', hb,
    Device.with_busy hb, List.range_succ, BitVec.ofNat_add]

theorem polledPhase_pollingPhase {p : Phase} (hp : p = .idle ∨ p = .running .run) :
    polledPhase (pollingPhase p) = p := by
  rcases hp with rfl | rfl <;> rfl

/-- The records of `k` busy polls and a ready one. -/
theorem range_map_readyPoll {α : Type} (f : Nat → Bool → α) (k : Nat) :
    (List.range (k + 1)).map (fun i => f i (decide (i < k))) =
      (List.range k).map (fun i => f i true) ++ [f k false] := by
  rw [List.range_succ, List.map_append]
  congr 1
  · exact List.map_congr_left fun i hi => by rw [decide_eq_true (List.mem_range.1 hi)]
  · simp

theorem State.pollReady_busyPolls (hp : s.phase = .idle ∨ s.phase = .running .run)
    (hstart : k = 0 ∨ s.dev.busy = true) (hready : s.dev.busy = true → s.wipAt k = false) :
    (s.busyPolls k).polled.pollReady = s.readyPoll k := by
  have hnext : (s.busyPolls k).wipNext = false := by simpa [State.busyPolls_wipNext] using hready
  have hstatus : (s.busyPolls k).statusNext = statusByte (s.hiAt k) false := by
    rw [State.busyPolls_statusNext, hnext]
  rw [State.polled, State.statusRead, hnext, hstatus, State.readyPoll,
    range_map_readyPoll fun i wip => goodRecord s.cfg .readStatus 0 [] [statusByte (s.hiAt i) wip]]
  rcases hstart with rfl | hb
  · simp [State.busyPolls, State.pollReady, State.sent, polledPhase_pollingPhase hp]
  · simp [State.busyPolls, State.pollReady, State.sent, polledPhase_pollingPhase hp,
      Function.iterate_succ_apply', BitVec.ofNat_add, hb]

/-! ## The POLL as steps of the machine -/

theorem afterRunStep_of_ne {t : State} (h : t.phase ≠ .running .run) : afterRunStep t = t := by
  unfold afterRunStep
  split
  · next hp => exact absurd hp h
  all_goals rfl

theorem opcNext_eq {o : Fin 14} (h : o.val < 12) : opcNext o = o + 1 ∧ opcNext o ≠ 13 := by
  revert h
  revert o
  decide

/-- The program does not end with a POLL (44_orchestrator R270). -/
theorem opc_lt_of_poll {o : Fin 14} (h : program o = some .poll) : o.val < 12 := by
  revert h
  revert o
  decide

/-- A command of RUN but the last completes, and `OPC` moves on (44_orchestrator R271). -/
theorem afterRunStep_advance {t : State} (hp : t.phase = .running .run) (ho : t.opc.val < 12) :
    afterRunStep t = { t with opc := t.opc + 1 } := by
  obtain ⟨heq, hne⟩ := opcNext_eq ho
  simp [afterRunStep, hp, State.runAdvance, heq ▸ hne, heq]

/-- A step in the middle of a POLL is the poll, and the RUN's advance if that ends it. -/
theorem step_busyPolls {t : State} (hf : s.frame = none)
    (hp : s.phase = .idle ∨ s.phase = .running .run) (ht : s.phase = .idle → t.phase ≠ .running .run)
    (hpoll : pollStep (s.busyPolls n) = .next t) : step (s.busyPolls n) = .next (afterRunStep t) := by
  rcases hp with hp | hp
  · have hphase : (s.busyPolls n).phase = .running .poll := congrArg pollingPhase hp
    rw [step_polling (s := s.busyPolls n) hf hphase, hpoll, afterRunStep_of_ne (ht hp)]
  · have hphase : (s.busyPolls n).phase = .running .runPoll := congrArg pollingPhase hp
    rw [step_pollingInRun (s := s.busyPolls n) hf hphase, hpoll]
    rfl

theorem pollingPhase_ne_run (p : Phase) : pollingPhase p ≠ .running .run := by
  rcases p with _ | ⟨_ | _ | _⟩ | _ <;> nofun

theorem PollBudget.of_succ (h : PollBudget s (n + 1)) : PollBudget s n :=
  ⟨n.le_succ.trans h.1, fun m hm => n.le_succ.trans (h.2 m hm)⟩

/-- Each busy poll is one step. -/
theorem busyPolls_run (hf : s.frame = none) (hp : s.phase = .idle ∨ s.phase = .running .run)
    (hbudget : PollBudget s n) (hok : ∀ i, i < n → s.okAt i = true) (hb : n = 0 ∨ s.dev.busy = true)
    (hwip : ∀ i, i < n → s.wipAt i = true) : SafeRun n s.pollBegin (s.busyPolls n) := by
  induction n with
  | zero =>
    rw [State.busyPolls_zero]
    exact SafeRun.zero _
  | succ n ih =>
    have hb : s.dev.busy = true := hb.resolve_left nofun
    have hpoll : pollStep (s.busyPolls n) = .next (s.busyPolls (n + 1)) := by
      rw [pollStep_busyPolls hbudget (hok n n.lt_succ_self),
        State.polled_busyPolls hb (hwip n n.lt_succ_self), State.busyPolls_wipNext]
      simp [hb, hwip]
    refine (ih hbudget.of_succ (fun i hi => hok i (by omega)) (.inr hb)
      fun i hi => hwip i (by omega)).step_snoc ?_
    rw [step_busyPolls hf hp (fun _ => pollingPhase_ne_run _) hpoll,
      afterRunStep_of_ne (pollingPhase_ne_run _)]

/-- The first step of a POLL of the host that has just begun is what the command POLL does. -/
theorem step_pollBegin_idle (hf : s.frame = none) (hp : s.phase = .idle) :
    step s.pollBegin = exec .poll s :=
  step_polling (s := s.pollBegin) hf (congrArg pollingPhase hp)

/-- The step of RUN at a POLL is the first step of that POLL. -/
theorem step_pollBegin_run (hf : s.frame = none) (hp : s.phase = .running .run)
    (hprog : program s.opc = some .poll) : step s = step s.pollBegin := by
  rw [step_program hf hp hprog]
  exact (step_pollingInRun (s := s.pollBegin) hf (congrArg pollingPhase hp)).symm

end

/-- A POLL that sees `k` busy statuses and a ready one, within its bound and with every transaction
good (43_busy_poll R247). -/
structure ReadyAfter (s : State) (k : Nat) : Prop where
  budget : PollBudget s (k + 1)
  transport : ∀ i, i ≤ k → s.okAt i = true
  start : k = 0 ∨ s.dev.busy = true
  busy : ∀ i, i < k → s.wipAt i = true
  ready : s.dev.busy = true → s.wipAt k = false

section
variable {s : State} {k : Nat}

theorem ReadyAfter.pollStep (h : ReadyAfter s k) (hp : s.phase = .idle ∨ s.phase = .running .run) :
    pollStep (s.busyPolls k) = .next (s.readyPoll k) := by
  rw [pollStep_busyPolls h.budget (h.transport k le_rfl),
    State.pollReady_busyPolls hp h.start h.ready]
  have hnext : (s.busyPolls k).wipNext = false := by simpa [State.busyPolls_wipNext] using h.ready
  simp [hnext]

/-- From its start a POLL takes `k + 1` steps to Ready, and a RUN goes on with its next command. -/
theorem ReadyAfter.run (h : ReadyAfter s k) (hf : s.frame = none)
    (hp : s.phase = .idle ∨ s.phase = .running .run) :
    SafeRun (k + 1) s.pollBegin (afterRunStep (s.readyPoll k)) := by
  have hbusy := busyPolls_run hf hp h.budget.of_succ (fun i hi => h.transport i hi.le) h.start h.busy
  exact hbusy.step_snoc (step_busyPolls hf hp (fun hidle => by simp [State.readyPoll, hidle])
    (h.pollStep hp))

/-- A POLL of RUN, Ready after `k + 1` steps of the machine. -/
theorem ReadyAfter.runOfARun (h : ReadyAfter s k) (hf : s.frame = none)
    (hp : s.phase = .running .run) (hprog : program s.opc = some .poll) :
    SafeRun (k + 1) s { s.readyPoll k with opc := s.opc + 1 } := by
  have hrun := h.run hf (.inr hp)
  rw [afterRunStep_advance (t := s.readyPoll k) hp (opc_lt_of_poll hprog)] at hrun
  exact hrun.of_step_eq (step_pollBegin_run hf hp hprog)

end

/-- The first poll of an idle device is the ready one (43_busy_poll R250). -/
theorem readyAfter_zero {s : State} (hbound : s.cfg.maxPolls ≠ some 0) (hok : s.okAt 0 = true)
    (hb : s.dev.busy = false) : ReadyAfter s 0 where
  budget := ⟨by omega, fun m hm => Nat.one_le_iff_ne_zero.2 fun h0 => hbound (h0 ▸ hm)⟩
  transport := fun i hi => by rwa [Nat.le_zero.1 hi]
  start := .inl rfl
  busy := fun i hi => absurd hi i.not_lt_zero
  ready := by simp [hb]

/-- Settles O38: with no busy poll before it the first poll is the ready one. -/
theorem pollOnIdleDevice : Obligations.PollOnIdleDevice := by
  intro s hp hbound hok hb
  have hpoll := (readyAfter_zero hbound hok hb).pollStep hp
  rw [State.busyPolls_zero] at hpoll
  refine hpoll.trans ?_
  simp [State.readyPoll, Device.with_busy hb, hb]

/-- Settles O41: the first of the `k + 1` polls is the command's own step. -/
theorem pollReachesReadyAfterKBusyPolls : Obligations.PollReachesReadyAfterKBusyPolls := by
  intro s k hf hp hbudget hok hstart hbusy hready
  have hpolls : ReadyAfter s k := ⟨hbudget, hok, hstart, hbusy, hready⟩
  have hrun := hpolls.run hf (.inl hp)
  rw [afterRunStep_of_ne (t := s.readyPoll k) (by simp [State.readyPoll, hp])] at hrun
  obtain ⟨t, hstep, hrest⟩ := hrun.succ
  exact ⟨t, (step_pollBegin_idle hf hp).symm.trans hstep, hrest⟩

/-- Under `MAX_POLLS = m` a POLL of a device that stays busy halts after `m` polls (43_busy_poll R243). -/
theorem timeout_run {s : State} {m : Nat} (hf : s.frame = none)
    (hp : s.phase = .idle ∨ s.phase = .running .run) (hm : s.cfg.maxPolls = some m)
    (hmax : m ≤ 2 ^ 32 - 1) (hb : s.dev.busy = true) (hok : ∀ i, i < m → s.okAt i = true)
    (hwip : ∀ i, i < m → s.wipAt i = true) :
    SafeRun (m + 1) s.pollBegin ((s.busyPolls m).raise .deviceBusyTimeout) := by
  have hbudget : PollBudget s m := ⟨hmax, fun m' hm' => by rw [hm] at hm'; cases hm'; rfl⟩
  have hcnt : (s.busyPolls m).pollCnt.toNat = m := Nat.mod_eq_of_lt (by omega)
  have hpoll : pollStep (s.busyPolls m) = .next ((s.busyPolls m).raise .deviceBusyTimeout) :=
    pollStep_eq_next.2 (.inl ⟨by rw [hcnt]; exact hm, rfl⟩)
  have hstep := step_busyPolls hf hp (by simp) hpoll
  rw [afterRunStep_of_ne (by simp)] at hstep
  exact (busyPolls_run hf hp hbudget hok (.inr hb) hwip).step_snoc hstep

/-- Settles O60: POLL of RUN makes the steps of a POLL begun there. -/
theorem pollOfARun : Obligations.PollOfARun := by
  refine ⟨fun s k hf hp hprog hbudget hok hstart hbusy hready => ?_,
    fun s m hf hp hprog hm hpos hmax hb hok hwip => ?_⟩
  · exact ReadyAfter.runOfARun ⟨hbudget, hok, hstart, hbusy, hready⟩ hf hp hprog
  · exact ⟨_, (timeout_run hf (.inr hp) hm hmax hb hok hwip).of_step_eq
      (step_pollBegin_run hf hp hprog), rfl, rfl, Nat.mod_eq_of_lt (by omega), rfl, rfl, rfl, rfl⟩

end Sys2Proof.Machine
end

section
/-! A step makes at most one transaction, and what that can do to the array and to a busy device
(20_memory R69, R74, R76, R77, R79). -/

namespace Sys2Proof.Machine

/-! ## The one transaction of a step -/

/-- How a step used the bus: not at all, or for one transaction, which a busy device takes only if it is
Read-Status. -/
inductive BusUse (s t : State) : Prop
  | unused (dev : t.dev = s.dev) (trace : t.trace = s.trace)
  | used (d : CommandDescriptor) (k : Kind) (a : Word) (out : List Byte)
      (allowed : s.dev.busy = true → k = .readStatus)
      (dev : t.dev = (txnRun d k a out s).state.dev)
      (trace : ∃ ok input, t.trace = s.trace ++ [txnRecord d k a out ok input])

/-- What passes the checks of a transaction goes out on the bus. -/
def GoesOut (s : State) (c : Except Fault TxnDone) : Prop :=
  ∀ x, c = .ok x → ∃ d k a out, (s.dev.busy = true → k = .readStatus) ∧ x = txnRun d k a out s

section
variable {s t u : State} {a : Word}

theorem statusTxn_goesOut : GoesOut s (statusTxn s) := by
  intro x hx
  rw [statusTxn_eq] at hx
  cases hx
  exact ⟨_, _, _, _, fun _ => rfl, rfl⟩

theorem enableTxn_goesOut : GoesOut s (enableTxn s) := by
  intro x hx
  obtain ⟨hb, rfl⟩ := enableTxn_eq_ok.1 hx
  exact ⟨_, _, _, _, by simp [hb], rfl⟩

theorem eraseTxn_goesOut : GoesOut s (eraseTxn a s) := by
  intro x hx
  obtain ⟨-, -, hb, rfl⟩ := eraseTxn_eq_ok.1 hx
  exact ⟨_, _, _, _, by simp [hb], rfl⟩

theorem programTxn_goesOut {payload : Except Fault (List Byte)} :
    GoesOut s (programTxn a payload s) := by
  intro x hx
  obtain ⟨v, -, -, -, hb, rfl⟩ := programTxn_eq_ok.1 hx
  exact ⟨_, _, _, _, by simp [hb], rfl⟩

theorem readTxn_goesOut {m : Option Byte} : GoesOut s (readTxn m a s) := by
  intro x hx
  obtain ⟨-, hb, rfl⟩ := readTxn_eq_ok.1 hx
  exact ⟨_, _, _, _, by simp [hb], rfl⟩

theorem BusUse.of_end (h : BusUse s t) (hdev : u.dev = t.dev) (htrace : u.trace = t.trace) :
    BusUse s u := by
  cases h with
  | unused dev trace => exact .unused (hdev.trans dev) (htrace.trans trace)
  | used d k a out allowed dev trace =>
    exact .used d k a out allowed (hdev.trans dev) (htrace ▸ trace)

/-- `u` is `s` as far as a transaction looks. -/
structure SameBus (s u : State) : Prop where
  cfg : u.cfg = s.cfg := by rfl
  dev : u.dev = s.dev := by rfl
  trace : u.trace = s.trace := by rfl
  okDraws : u.okDraws = s.okDraws := by rfl
  wipDraws : u.wipDraws = s.wipDraws := by rfl

theorem SameBus.txnRun_dev (h : SameBus s u) (d : CommandDescriptor) (k : Kind) (a : Word)
    (out : List Byte) : (txnRun d k a out u).state.dev = (txnRun d k a out s).state.dev := by
  have hok : u.okAt 0 = s.okAt 0 := by rw [State.okAt, h.okDraws, State.okAt]
  cases hs : s.okAt 0 with
  | false =>
    rw [txnRun_failed hs, txnRun_failed (hok.trans hs)]
    exact congrArg lostDevice h.dev
  | true =>
    rw [txnRun_good hs, txnRun_good (hok.trans hs)]
    cases k with
    | readStatus =>
      simp [deviceRespond_readStatus, State.sent, State.statusRead, State.wipNext, State.wipAt, h.dev,
        h.wipDraws]
    | _ => simp [deviceRespond, State.sent, h.dev, h.cfg]

theorem BusUse.of_start (h : BusUse u t) (hu : SameBus s u) : BusUse s t := by
  cases h with
  | unused dev trace => exact .unused (dev.trans hu.dev) (trace.trans hu.trace)
  | used d k a out allowed dev trace =>
    exact .used d k a out (hu.dev ▸ allowed) (dev.trans (hu.txnRun_dev d k a out)) (hu.trace ▸ trace)

variable {c : Except Fault TxnDone}

theorem GoesOut.busUse {x : TxnDone} (hc : GoesOut s c) (hx : c = .ok x) : BusUse s x.state := by
  obtain ⟨d, k, a, out, allowed, rfl⟩ := hc x hx
  obtain ⟨_, _, _, hstate⟩ := txnRun_frame d k a out s
  exact .used d k a out allowed rfl ⟨_, _, congrArg State.trace hstate⟩

theorem GoesOut.xact {onOk : List Byte → State → State} {onFail : State → State}
    (hc : GoesOut s c) (h : guardFault c (finishTxn onOk onFail) = .next t)
    (hok : ∀ v u, (onOk v u).dev = u.dev ∧ (onOk v u).trace = u.trace)
    (hfail : ∀ u, (onFail u).dev = u.dev ∧ (onFail u).trace = u.trace) : BusUse s t := by
  obtain ⟨x, hx, hfin⟩ := guardFault_eq_next.1 h
  cases hfin
  split
  · exact (hc.busUse hx).of_end (hok ..).1 (hok ..).2
  · exact (hc.busUse hx).of_end (hfail _).1 (hfail _).2

theorem GoesOut.frame (hc : GoesOut s c) (h : guardFault c frameDone = .next t) : BusUse s t := by
  obtain ⟨x, hx, hdone⟩ := guardFault_eq_next.1 h
  cases hdone
  exact hc.busUse hx

theorem engineCommand_busUse {f : List Col → AesState → AesState} {tag : DumpTag}
    {src dst : BufId} {n : Nat} (h : engineCommand f tag src dst n s = .next t) : BusUse s t := by
  unfold engineCommand at h
  split at h
  · cases h
    exact .unused rfl rfl
  · obtain ⟨input, -, hend⟩ := guardFault_eq_next.1 h
    rw [engineCall_eq] at hend
    cases hend
    unfold engineEnd
    split <;> exact .unused rfl rfl

theorem pollStep_busUse (h : pollStep s = .next t) : BusUse s t := by
  rcases pollStep_eq_next.1 h with ⟨-, rfl⟩ | ⟨-, -, rfl⟩
  · exact .unused rfl rfl
  · refine (statusTxn_goesOut.busUse (statusTxn_eq s)).of_end ?_ ?_ <;>
    · unfold pollResult
      split
      · split <;> rfl
      · rfl

/-- An instruction makes at most one transaction. -/
theorem exec_busUse {i : Instr} (h : exec i s = .next t) : BusUse s t := by
  cases i with
  | enc src dst n => exact engineCommand_busUse h
  | dec src dst n => exact engineCommand_busUse h
  | xactReadStatus =>
    exact statusTxn_goesOut.xact h (fun _ _ => ⟨rfl, rfl⟩) (fun _ => ⟨rfl, rfl⟩)
  | xactWriteEnable =>
    exact enableTxn_goesOut.xact h (fun _ _ => ⟨rfl, rfl⟩) (fun _ => ⟨rfl, rfl⟩)
  | xactSectorErase =>
    exact eraseTxn_goesOut.xact h (fun _ _ => ⟨rfl, rfl⟩) (fun _ => ⟨rfl, rfl⟩)
  | xactQuadPageProgram b =>
    exact programTxn_goesOut.xact h (fun _ _ => ⟨rfl, rfl⟩) (fun _ => ⟨rfl, rfl⟩)
  | xactQuadIoRead b =>
    exact readTxn_goesOut.xact h (fun _ _ => ⟨rfl, rfl⟩) (fun _ => ⟨rfl, rfl⟩)
  | poll =>
    exact (pollStep_busUse h).of_start {}
  | chkff b =>
    obtain ⟨v, -, hend⟩ := guardFault_eq_next.1 h
    cases hend
    split <;> exact .unused rfl rfl
  | fill b =>
    cases h
    exact .unused rfl rfl
  | cmp x y =>
    obtain ⟨u, -, hy⟩ := guardFault_eq_next.1 h
    obtain ⟨v, -, hend⟩ := guardFault_eq_next.1 hy
    cases hend
    split <;> exact .unused rfl rfl
  | run =>
    cases h
    exact .unused rfl rfl
  | flashReadStatus => exact statusTxn_goesOut.frame h
  | flashWriteEnable => exact enableTxn_goesOut.frame h
  | flashSectorErase a => exact eraseTxn_goesOut.frame h
  | flashQuadPageProgram a data => exact programTxn_goesOut.frame h
  | flashQuadIoRead a mode => exact readTxn_goesOut.frame h

theorem afterRunStep_dev_trace (s : State) :
    (afterRunStep s).dev = s.dev ∧ (afterRunStep s).trace = s.trace := by
  unfold afterRunStep
  split
  · simp only [State.runAdvance]
    split <;> exact ⟨rfl, rfl⟩
  all_goals exact ⟨rfl, rfl⟩

/-- A step makes at most one transaction. -/
theorem step_busUse (h : step s = .next t) : BusUse s t := by
  cases stepCase_of_step h with
  | frame hf hd hx => exact (exec_busUse hx).of_start {}
  | command hf hp hi hd hx => exact (exec_busUse hx).of_start {}
  | polling hf hp hx => exact pollStep_busUse hx
  | pollingInRun hf hp hx =>
    exact (pollStep_busUse hx).of_end (afterRunStep_dev_trace _).1 (afterRunStep_dev_trace _).2
  | program hf hp hi hx =>
    exact (exec_busUse hx).of_end (afterRunStep_dev_trace _).1 (afterRunStep_dev_trace _).2
  | waiting | writeAddr | programEnd | halted => exact .unused rfl rfl

/-! ## What it can do to the array and to a busy device -/

/-- Only an erase and a program change a byte, each with the latch set. -/
theorem deviceRespond_array {k : Kind} {out : List Byte} {x : Nat}
    (h : (deviceRespond k a out s).2.flashByte x ≠ s.flashByte x) :
    k ≠ .readStatus ∧ s.dev.wel = true ∧ (deviceRespond k a out s).2.dev.wel = false ∧
      (deviceRespond k a out s).2.dev.busy = true := by
  cases k with
  | readStatus =>
    rw [deviceRespond_readStatus] at h
    exact absurd rfl h
  | writeEnable | quadIoRead => exact absurd rfl h
  | sectorErase =>
    cases hw : s.dev.wel with
    | false => exact absurd (by simp [deviceRespond, State.flashByte, Device.sectorErase_rejected hw]) h
    | true => simp [deviceRespond, Device.sectorErase_accepted hw]
  | quadPageProgram =>
    cases hw : s.dev.wel with
    | false => exact absurd (by simp [deviceRespond, State.flashByte, Device.pageProgram_rejected hw]) h
    | true => simp [deviceRespond, Device.pageProgram_accepted hw]

end

/-- Settles O57: the one transaction of the step, and the device's answer to it. -/
theorem onlyTheLatchOpensTheArray : Obligations.OnlyTheLatchOpensTheArray := by
  intro s t _ hok hs
  cases step_busUse hs with
  | unused hdev htrace =>
    refine ⟨fun x hx => absurd (by rw [State.flashByte, hdev, State.flashByte]) hx, fun hb ht => ?_⟩
    rw [hdev, hb] at ht
    cases ht
  | used d k a out allowed hdev htrace =>
    rw [txnRun_good hok] at hdev
    constructor
    · intro x hx
      rw [State.flashByte, hdev] at hx
      obtain ⟨hk, hwel, hclear, hbusy⟩ := deviceRespond_array hx
      exact ⟨hwel, eq_false_of_ne_true (mt allowed hk), hdev ▸ hclear, hdev ▸ hbusy⟩
    · intro hb ht
      obtain rfl := allowed hb
      rw [deviceRespond_readStatus] at hdev
      obtain ⟨_, _, htrace⟩ := htrace
      refine ⟨_, htrace, rfl, ?_⟩
      have hwip : s.wipNext = false := (congrArg Device.busy hdev).symm.trans ht
      simpa [State.wipNext, hb] using hwip

end Sys2Proof.Machine
end

section
/-! DEC gives back what ENC took (40_cipher R153, R154, R166), and what a good ENC or DEC leaves. -/

namespace Sys2Proof.Machine

/-! ## The column map is linear, and its inverse undoes it -/

theorem gmulBits_xor (n : Nat) (a x y : Byte) :
    gmulBits n a (x ^^^ y) = gmulBits n a x ^^^ gmulBits n a y := by
  induction n generalizing a x y with
  | zero => simp [gmulBits]
  | succ n ih =>
    have hbit (p q : Bool) : (if p ^^ q then a else 0) = (if p then a else 0) ^^^ if q then a else 0 := by
      cases p <;> cases q <;> simp
    simp only [gmulBits, BitVec.ushiftRight_xor_distrib, ih, BitVec.getLsbD_xor, hbit]
    ac_rfl

theorem gmul_xor (a x y : Byte) : gmul a (x ^^^ y) = gmul a x ^^^ gmul a y :=
  gmulBits_xor 8 a x y

theorem mixCol_xor (a b : Col) : mixCol (a.xor b) = (mixCol a).xor (mixCol b) := by
  simp only [mixCol, Col.xor, gmul_xor, Col.mk.injEq]
  refine ⟨?_, ?_, ?_, ?_⟩ <;> ac_rfl

theorem invMixCol_xor (a b : Col) : invMixCol (a.xor b) = (invMixCol a).xor (invMixCol b) := by
  simp only [invMixCol, Col.xor, gmul_xor, Col.mk.injEq]
  refine ⟨?_, ?_, ?_, ?_⟩ <;> ac_rfl

/-- What holds of 0 and of the eight bits, and of a sum with its terms, holds of every byte. -/
theorem byte_induction {p : Byte → Prop} (hzero : p 0) (hbit : ∀ i : Fin 8, p ((1 : Byte) <<< i.val))
    (hxor : ∀ x y, p x → p y → p (x ^^^ y)) (x : Byte) : p x := by
  have hsum : ∀ x : Byte, (List.finRange 8).foldr
      (fun i acc => (if x.getLsbD i.val then (1 : Byte) <<< i.val else 0) ^^^ acc) 0 = x := by decide +kernel
  rw [← hsum x]
  generalize List.finRange 8 = bits
  induction bits with
  | nil => exact hzero
  | cons i bits ih =>
    refine hxor _ _ ?_ ih
    split
    · exact hbit i
    · exact hzero

/-- The column with the byte `x` in row `i` and 0 in the others. -/
def unitCol (i : Fin 4) (x : Byte) : Col :=
  ⟨if i = 0 then x else 0, if i = 1 then x else 0, if i = 2 then x else 0, if i = 3 then x else 0⟩

theorem unitCol_xor (i : Fin 4) (x y : Byte) :
    unitCol i (x ^^^ y) = (unitCol i x).xor (unitCol i y) := by
  fin_cases i <;> simp [unitCol, Col.xor]

theorem sum_unitCols (a : Col) :
    ((unitCol 0 a.r0).xor (unitCol 1 a.r1)).xor ((unitCol 2 a.r2).xor (unitCol 3 a.r3)) = a := by
  simp [unitCol, Col.xor]

theorem invMixCol_mixCol_unitCol (i : Fin 4) (x : Byte) :
    invMixCol (mixCol (unitCol i x)) = unitCol i x := by
  induction x using byte_induction with
  | hzero => revert i; decide +kernel
  | hbit j => revert i j; decide +kernel
  | hxor x y hx hy => rw [unitCol_xor, mixCol_xor, invMixCol_xor, hx, hy]

/-- Both column maps are linear, so it is enough to look at single bits (40_cipher R151). -/
theorem invMixCol_mixCol (a : Col) : invMixCol (mixCol a) = a := by
  rw [← sum_unitCols a]
  simp only [mixCol_xor, invMixCol_xor, invMixCol_mixCol_unitCol]

theorem invMixColumns_mixColumns (s : AesState) : invMixColumns (mixColumns s) = s := by
  simp [invMixColumns, mixColumns, AesState.mapCols, invMixCol_mixCol]

theorem invSbox_sbox (x : Byte) : invSbox (sbox x) = x := by
  revert x
  decide +kernel

theorem invSubBytes_subBytes (s : AesState) : invSubBytes (subBytes s) = s := by
  simp [invSubBytes, subBytes, AesState.mapCols, Col.map, invSbox_sbox]

theorem invShiftRows_shiftRows (s : AesState) : invShiftRows (shiftRows s) = s := rfl

theorem Col.xor_xor_cancel (a k : Col) : (a.xor k).xor k = a := by
  simp [Col.xor]

/-- A round key added twice is gone (40_cipher R149). -/
theorem addRoundKey_addRoundKey (w : List Col) (r : Nat) (s : AesState) :
    addRoundKey w r (addRoundKey w r s) = s := by
  simp [addRoundKey, Col.xor_xor_cancel]

/-! ## The rounds -/

/-- The inverse rounds peel the rounds off from the last one. -/
theorem invCipherRounds_cipherRounds (w : List Col) (n : Nat) (s : AesState) :
    invSubBytes (invShiftRows (invCipherRounds w n (shiftRows (subBytes (cipherRounds w n s))))) = s := by
  induction n with
  | zero => rw [invCipherRounds, cipherRounds, invShiftRows_shiftRows, invSubBytes_subBytes]
  | succ n ih =>
    rw [invCipherRounds, invShiftRows_shiftRows, invSubBytes_subBytes, cipherRounds,
      addRoundKey_addRoundKey, invMixColumns_mixColumns, ih]

theorem invCipherState_cipherState (w : List Col) (s : AesState) :
    invCipherState w (cipherState w s) = s := by
  rw [invCipherState, cipherState, addRoundKey_addRoundKey, invCipherRounds_cipherRounds,
    addRoundKey_addRoundKey]

theorem storeBlock_loadBlock {b : List Byte} (h : b.length = blockSize) :
    storeBlock (loadBlock b) = b := by
  match b, h with
  | [_, _, _, _, _, _, _, _, _, _, _, _, _, _, _, _], _ => rfl

theorem blockOf_length (f : List Col → AesState → AesState) (w : List Col) (b : List Byte) :
    (blockOf f w b).length = blockSize := rfl

theorem invCipher_cipher {b : List Byte} (w : List Col) (h : b.length = blockSize) :
    invCipher w (cipher w b) = b := by
  rw [invCipher, cipher, loadBlock_storeBlock, invCipherState_cipherState, storeBlock_loadBlock h]

/-- What undoes each block undoes them all (40_cipher R166). -/
theorem ecbBlocks_undo {f g : List Byte → List Byte} (hf : ∀ b, (f b).length = blockSize)
    (hgf : ∀ b, b.length = blockSize → g (f b) = b) (n : Nat) :
    ∀ input : List Byte, input.length = blockBytes n → ecbBlocks g n (ecbBlocks f n input) = input := by
  induction n with
  | zero =>
    intro input h
    exact (List.length_eq_zero_iff.1 h).symm
  | succ n ih =>
    intro input h
    have hlen : input.length = blockSize + blockBytes n := by
      rw [h, blockBytes, blockBytes, Nat.mul_succ, Nat.add_comm]
    have hfirst : (input.take blockSize).length = blockSize := by
      rw [List.length_take, hlen]
      omega
    have hrest : (input.drop blockSize).length = blockBytes n := by
      rw [List.length_drop, hlen]
      omega
    rw [ecbBlocks, ecbBlocks, List.take_left' (hf _), List.drop_left' (hf _), hgf _ hfirst,
      ih _ hrest, List.take_append_drop]

/-! ## A good call -/

/-- A good ENC or DEC writes its blocks, logs them and makes one engine draw (40_cipher R162, R163). -/
theorem engineCommand_good {f : List Col → AesState → AesState} {tag : DumpTag} {src dst : BufId}
    {n : Nat} {s : State} {input : List Byte} (hn : n ≠ 0)
    (hsrc : (s.buf src).bytes 0 (blockBytes n) = some input) (hok : s.engineAt 0 = true) :
    engineCommand f tag src dst n s = .next
      { s with
        bufs := s.bufs.set dst ((s.buf dst).put 0 (ecbBlocks (blockOf f (keyExpansion s.cfg.aesKey)) n input))
        ks := .uninit
        aes := none
        log := s.log ++ [.dump tag (ecbBlocks (blockOf f (keyExpansion s.cfg.aesKey)) n input)]
        engineDraws := s.engineDraws.rest } := by
  have hfinal : s.engineFinal.engineAt 0 = true := hok
  rw [engineCommand, if_neg hn, bufRead_eq_ok hsrc]
  simp only [guardFault, engineCall_eq, engineEnd, hfinal, if_true]
  rfl

end Sys2Proof.Machine
end

section
/-! A good RUN (44_orchestrator R270 to R278): what its commands leave and use up, command by command, and
the end-to-end law put together from them. -/

namespace Sys2Proof.Machine

/-! ## What good commands leave and use up -/

/-- The records of good transactions of the table, by their kinds. -/
def Records (c : Config) (new : List TxnRecord) (ks : List Kind) : Prop :=
  List.Forall₂ (fun r k => ∃ a out input, r = goodRecord c k a out input) new ks

/-- `t` comes from `s` by commands of a RUN that completed: they made the transactions `ks`, each
Read-Status to a busy device, and the engine calls that logged `ds`. -/
structure Work (ks : List Kind) (ds : List LogEvent) (s t : State) : Prop where
  frame : t.frame = s.frame := by rfl
  phase : t.phase = s.phase := by rfl
  cfg : t.cfg = s.cfg := by rfl
  addr : t.addr = s.addr := by rfl
  runT : t.runT = s.runT := by rfl
  inbox : t.inbox = s.inbox := by rfl
  err : t.err = s.err := by rfl
  fault : t.fault = s.fault := by rfl
  log : t.log = s.log ++ ds := by exact (List.append_nil _).symm
  trace : ∃ new, t.trace = s.trace ++ new ∧ Records s.cfg new ks := by
    exact ⟨[], (List.append_nil _).symm, .nil⟩
  okDraws : t.okDraws = Draws.rest^[ks.length] s.okDraws := by rfl
  wipDraws : t.wipDraws = Draws.rest^[ks.count .readStatus] s.wipDraws := by rfl
  engineDraws : t.engineDraws = Draws.rest^[ds.length] s.engineDraws := by rfl

theorem Work.trans {ks ks' : List Kind} {ds ds' : List LogEvent} {s t u : State} (h : Work ks ds s t)
    (k : Work ks' ds' t u) : Work (ks ++ ks') (ds ++ ds') s u where
  frame := k.frame.trans h.frame
  phase := k.phase.trans h.phase
  cfg := k.cfg.trans h.cfg
  addr := k.addr.trans h.addr
  runT := k.runT.trans h.runT
  inbox := k.inbox.trans h.inbox
  err := k.err.trans h.err
  fault := k.fault.trans h.fault
  log := by rw [k.log, h.log, List.append_assoc]
  trace := by
    obtain ⟨new, htrace, hnew⟩ := h.trace
    obtain ⟨new', htrace', hnew'⟩ := k.trace
    exact ⟨new ++ new', by rw [htrace', htrace, List.append_assoc], List.rel_append hnew (h.cfg ▸ hnew')⟩
  okDraws := by
    rw [k.okDraws, h.okDraws, ← Function.iterate_add_apply, List.length_append, Nat.add_comm]
  wipDraws := by
    rw [k.wipDraws, h.wipDraws, ← Function.iterate_add_apply, List.count_append, Nat.add_comm]
  engineDraws := by
    rw [k.engineDraws, h.engineDraws, ← Function.iterate_add_apply, List.length_append, Nat.add_comm]

/-- A RUN that began in `r` stands in `s` before the command `o`, after `n` steps. -/
structure RunAt (r : State) (o : Fin 14) (n : Nat) (ks : List Kind) (ds : List LogEvent)
    (s : State) : Prop extends Work ks ds r s where
  no_frame : r.frame = none
  running : r.phase = .running .run
  run : SafeRun n r s
  opc : s.opc = o

section
variable {r s t : State} {o : Fin 14} {n : Nat} {ks : List Kind} {ds : List LogEvent}

theorem RunAt.okAt (A : RunAt r o n ks ds s) (i : Nat) : s.okAt i = r.okAt (ks.length + i) := by
  rw [State.okAt, A.okDraws]
  exact Draws.look_iterate_rest ..

theorem RunAt.wipAt (A : RunAt r o n ks ds s) (i : Nat) :
    s.wipAt i = r.wipAt (ks.count .readStatus + i) := by
  rw [State.wipAt, A.wipDraws]
  exact Draws.look_iterate_rest ..

theorem RunAt.engineAt (A : RunAt r o n ks ds s) (i : Nat) :
    s.engineAt i = r.engineAt (ds.length + i) := by
  rw [State.engineAt, A.engineDraws]
  exact Draws.look_iterate_rest ..

theorem RunAt.txnAddr (A : RunAt r o n ks ds s) : s.txnAddr = r.runT := by
  simp [State.txnAddr, A.phase, A.running, Phase.inRun, A.runT]

/-- A RUN goes on by the steps of a command. -/
theorem RunAt.extend {m : Nat} {ks' ks'' : List Kind} {ds' ds'' : List LogEvent}
    (A : RunAt r o n ks ds s) (hrun : SafeRun m s t) (hopc : t.opc = o + 1) (w : Work ks' ds' s t)
    (hks : ks ++ ks' = ks'') (hds : ds ++ ds' = ds'') : RunAt r (o + 1) (n + m) ks'' ds'' t := by
  subst hks hds
  exact
    { A.toWork.trans w with
      no_frame := A.no_frame
      running := A.running
      run := A.run.trans hrun
      opc := hopc }

/-- A command of one step that completes, but the last (44_orchestrator R271). -/
theorem RunAt.command {i : Instr} {ks' ks'' : List Kind} {ds' ds'' : List LogEvent}
    (A : RunAt r o n ks ds s) (hi : program o = some i) (ho : o.val < 12) (hx : exec i s = .next t)
    (hopc : t.opc = s.opc) (w : Work ks' ds' s t) (hks : ks ++ ks' = ks'') (hds : ds ++ ds' = ds'') :
    ∃ u, RunAt r (o + 1) (n + 1) ks'' ds'' u ∧ u.bufs = t.bufs ∧ u.dev = t.dev := by
  have hlt : t.opc.val < 12 := by rwa [hopc, A.opc]
  have hstep : step s = .next { t with opc := t.opc + 1 } := by
    rw [step_program (A.frame.trans A.no_frame) (A.phase.trans A.running) (A.opc.symm ▸ hi), hx]
    exact congrArg _ (afterRunStep_advance (w.phase.trans (A.phase.trans A.running)) hlt)
  exact ⟨_, A.extend (SafeRun.step_cons hstep (SafeRun.zero _))
    (congrArg (· + 1) (hopc.trans A.opc)) { w with } hks hds, rfl, rfl⟩

/-- A command that makes one transaction, not of the status. -/
theorem RunAt.transact {i : Instr} {k : Kind} {a : Word} {out input : List Byte} {bufs : Buffers}
    {dev : Device} (A : RunAt r o n ks ds s) (hi : program o = some i) (ho : o.val < 12)
    (hk : k ≠ .readStatus)
    (hx : exec i s = .next
      (({ s with bufs := bufs, dev := dev }).sent (goodRecord s.cfg k a out input))) :
    ∃ t, RunAt r (o + 1) (n + 1) (ks ++ [k]) ds t ∧ t.bufs = bufs ∧ t.dev = dev :=
  A.command hi ho hx rfl
    { trace := ⟨_, rfl, .cons ⟨_, _, _, rfl⟩ .nil⟩
      wipDraws := by rw [List.count_singleton, if_neg (by simpa using hk)]; rfl } rfl ds.append_nil

/-- A command that makes no transaction and no engine call. -/
theorem RunAt.compute {i : Instr} {bufs : Buffers} (A : RunAt r o n ks ds s)
    (hi : program o = some i) (ho : o.val < 12) (hx : exec i s = .next { s with bufs := bufs }) :
    ∃ t, RunAt r (o + 1) (n + 1) ks ds t ∧ t.bufs = bufs ∧ t.dev = s.dev :=
  A.command hi ho hx rfl {} ks.append_nil ds.append_nil

/-! ## The commands -/

theorem RunAt.writeEnable (A : RunAt r o n ks ds s) (hi : program o = some .xactWriteEnable)
    (ho : o.val < 12) (hok : r.okAt ks.length = true) (hb : s.dev.busy = false) :
    ∃ t, RunAt r (o + 1) (n + 1) (ks ++ [.writeEnable]) ds t ∧ t.bufs = s.bufs ∧
      t.dev = { s.dev with wel := true } :=
  A.transact hi ho nofun (writeEnableResult s ((A.okAt 0).trans hok) hb).1

theorem RunAt.sectorErase (A : RunAt r o n ks ds s) (hi : program o = some .xactSectorErase)
    (ho : o.val < 12) (hok : r.okAt ks.length = true) (hb : s.dev.busy = false)
    (hal : r.runT.toNat % r.cfg.sectorSize = 0)
    (hfit : r.runT.toNat + r.cfg.sectorSize ≤ r.cfg.deviceSize) :
    ∃ t, RunAt r (o + 1) (n + 1) (ks ++ [.sectorErase]) ds t ∧ t.bufs = s.bufs ∧
      t.dev = s.dev.sectorErase r.cfg.sectorSize r.runT.toNat := by
  rw [← A.txnAddr, ← A.cfg] at hal hfit ⊢
  exact A.transact hi ho nofun (xact_good (eraseTxn_ready hb hal hfit) ((A.okAt 0).trans hok))

theorem RunAt.quadPageProgram {b : BufId} {v : List Byte} (A : RunAt r o n ks ds s)
    (hi : program o = some (.xactQuadPageProgram b)) (ho : o.val < 12)
    (hok : r.okAt ks.length = true) (hb : s.dev.busy = false) (hal : r.runT.toNat % pageSize = 0)
    (hfit : r.runT.toNat + pageSize ≤ r.cfg.deviceSize) (hv : (s.buf b).bytes 0 64 = some v) :
    ∃ t, RunAt r (o + 1) (n + 1) (ks ++ [.quadPageProgram]) ds t ∧ t.bufs = s.bufs ∧
      t.dev = s.dev.pageProgram r.runT.toNat v := by
  rw [← A.txnAddr] at hal hfit ⊢
  rw [← A.cfg] at hfit
  exact A.transact hi ho nofun
    (xact_good (programTxn_ready hb (bufRead_eq_ok hv) hal hfit) ((A.okAt 0).trans hok))

theorem RunAt.quadIoRead {b : BufId} (A : RunAt r o n ks ds s)
    (hi : program o = some (.xactQuadIoRead b)) (ho : o.val < 12) (hok : r.okAt ks.length = true)
    (hb : s.dev.busy = false) (hfit : r.runT.toNat + pageSize ≤ r.cfg.deviceSize) :
    ∃ t, RunAt r (o + 1) (n + 1) (ks ++ [.quadIoRead]) ds t ∧
      t.bufs = s.bufs.set b (Buffer.ofBytes (s.flashPage r.runT.toNat)) ∧ t.dev = s.dev := by
  rw [← A.txnAddr, ← A.cfg] at hfit
  rw [← A.txnAddr]
  exact A.transact hi ho nofun (exec_xactQuadIoRead_good b ((A.okAt 0).trans hok) hb hfit)

/-- The records of a POLL of RUN. -/
theorem records_polls (c : Config) (f : Nat → Byte) (k : Nat) :
    Records c ((List.range k).map fun i => goodRecord c .readStatus 0 [] [f i])
      (List.replicate k .readStatus) := by
  rw [Records, List.forall₂_map_left_iff, List.forall₂_iff_get]
  exact ⟨by simp, fun i _ _ => ⟨0, [], [f i], by simp⟩⟩

theorem RunAt.poll {k : Nat} (A : RunAt r o n ks ds s) (hi : program o = some .poll)
    (hbudget : PollBudget r (k + 1)) (hok : ∀ i, i ≤ k → r.okAt (ks.length + i) = true)
    (hb : s.dev.busy = true) (hbusy : ∀ i, i < k → r.wipAt (ks.count .readStatus + i) = true)
    (hready : r.wipAt (ks.count .readStatus + k) = false) :
    ∃ t, RunAt r (o + 1) (n + (k + 1)) (ks ++ List.replicate (k + 1) .readStatus) ds t ∧
      t.bufs = s.bufs ∧ t.dev = { s.dev with busy := false } := by
  have hpolls : ReadyAfter s k :=
    ⟨by rwa [PollBudget, A.cfg], fun i hi => (A.okAt i).trans (hok i hi), .inr hb,
      fun i hi => (A.wipAt i).trans (hbusy i hi), fun _ => (A.wipAt k).trans hready⟩
  have hrun := hpolls.runOfARun (A.frame.trans A.no_frame) (A.phase.trans A.running) (A.opc.symm ▸ hi)
  have hwork : Work (List.replicate (k + 1) .readStatus) [] s { s.readyPoll k with opc := s.opc + 1 } :=
    { trace := ⟨_, rfl, records_polls ..⟩
      okDraws := by rw [List.length_replicate]; rfl
      wipDraws := by simp [State.readyPoll, hb] }
  exact ⟨_, A.extend hrun (congrArg (· + 1) A.opc) hwork rfl ds.append_nil, rfl, rfl⟩

theorem RunAt.chkff {b : BufId} (A : RunAt r o n ks ds s) (hi : program o = some (.chkff b))
    (ho : o.val < 12) (hv : (s.buf b).bytes 0 64 = some (List.replicate 64 erased)) :
    ∃ t, RunAt r (o + 1) (n + 1) ks ds t ∧ t.bufs = s.bufs ∧ t.dev = s.dev := by
  refine A.compute hi ho ?_
  refine guardFault_eq_next.2 ⟨_, bufRead_eq_ok hv, ?_⟩
  simp

theorem fillPattern_length : fillPattern.length = 64 := by
  simp [fillPattern]

theorem RunAt.fill {b : BufId} (A : RunAt r o n ks ds s) (hi : program o = some (.fill b))
    (ho : o.val < 12) :
    ∃ t, RunAt r (o + 1) (n + 1) ks ds t ∧ t.bufs = s.bufs.set b (Buffer.ofBytes fillPattern) ∧
      t.dev = s.dev := by
  rw [← Buffer.put_page (s.buf b) fillPattern_length]
  exact A.compute hi ho rfl

/-- ENC and DEC of a whole page. -/
theorem RunAt.engine {i : Instr} {f : List Col → AesState → AesState} {tag : DumpTag}
    {src dst : BufId} {v : List Byte} (A : RunAt r o n ks ds s) (hi : program o = some i)
    (ho : o.val < 12) (hexec : exec i s = engineCommand f tag src dst 4 s)
    (hv : (s.buf src).bytes 0 64 = some v) (hok : r.engineAt ds.length = true) :
    ∃ t, RunAt r (o + 1) (n + 1) ks
        (ds ++ [.dump tag (ecbBlocks (blockOf f (keyExpansion r.cfg.aesKey)) 4 v)]) t ∧
      t.bufs = s.bufs.set dst
        (Buffer.ofBytes (ecbBlocks (blockOf f (keyExpansion r.cfg.aesKey)) 4 v)) ∧
      t.dev = s.dev := by
  rw [← A.cfg, ← Buffer.put_page (s.buf dst) (ecbBlocks_length (blockOf_length f _) 4 v)]
  exact A.command hi ho
    (hexec.trans (engineCommand_good nofun hv ((A.engineAt 0).trans hok))) rfl { log := rfl }
    ks.append_nil rfl

end

/-! ## The device through a RUN -/

/-- A device whose latch was set, then the sector at `a` erased, then waited for. -/
def Device.erasedAt (d : Device) (sectorSize a : Nat) : Device :=
  { ({ d with wel := true } : Device).sectorErase sectorSize a with busy := false }

/-- A device whose latch was set, then the page at `a` programmed, then waited for. -/
def Device.programmedAt (d : Device) (a : Nat) (v : List Byte) : Device :=
  { ({ d with wel := true } : Device).pageProgram a v with busy := false }

section
variable {d : Device}

theorem Device.readByte_erasedAt (hd : d.mem.wf d.base = true) (sectorSize a x : Nat) :
    (d.erasedAt sectorSize a).readByte x =
      if a ≤ x ∧ x < a + sectorSize then erased else d.readByte x :=
  Device.readByte_sectorErase (d := { d with wel := true }) hd rfl

theorem Device.erasedAt_wf (hd : d.mem.wf d.base = true) (sectorSize a : Nat) :
    (d.erasedAt sectorSize a).mem.wf (d.erasedAt sectorSize a).base = true :=
  Device.sectorErase_wf (d := { d with wel := true }) hd

theorem Device.readByte_programmedAt (hd : d.mem.wf d.base = true) (a x : Nat) (v : List Byte) :
    (d.programmedAt a v).readByte x =
      if a ≤ x ∧ x < a + v.length then d.readByte x &&& v.getD (x - a) 0 else d.readByte x :=
  Device.readByte_pageProgram (d := { d with wel := true }) hd rfl

/-- The array after a good RUN: the page of `v` at the start of a sector that is erased elsewhere. -/
theorem Device.readByte_programmedAt_erasedAt (hd : d.mem.wf d.base = true) {sectorSize a : Nat}
    {v : List Byte} (hfit : v.length ≤ sectorSize) (x : Nat) :
    ((d.erasedAt sectorSize a).programmedAt a v).readByte x =
      if a ≤ x ∧ x < a + v.length then v.getD (x - a) 0
      else if a ≤ x ∧ x < a + sectorSize then erased else d.readByte x := by
  rw [Device.readByte_programmedAt (Device.erasedAt_wf hd sectorSize a),
    Device.readByte_erasedAt hd sectorSize a]
  by_cases hpage : a ≤ x ∧ x < a + v.length
  · rw [if_pos hpage, if_pos hpage, if_pos ⟨hpage.1, by omega⟩]
    exact BitVec.allOnes_and
  · rw [if_neg hpage, if_neg hpage]

end

/-- A page of the array is known by its bytes. -/
theorem State.flashPage_eq {s : State} {a : Nat} {v : List Byte} (hv : v.length = 64)
    (h : ∀ i, i < 64 → s.flashByte (a + i) = v.getD i 0) : s.flashPage a = v := by
  refine List.ext_getElem (by rw [s.flashPage_length, hv]) fun i h1 h2 => ?_
  rw [List.getElem_eq_getD 0, List.getElem_eq_getD 0, ← h i (hv ▸ h2)]
  simp [State.flashPage, hv ▸ h2]

/-! ## The end-to-end law -/

/-- The state in which RUN starts its program (44_orchestrator R272). -/
def State.runStart (s : State) : State :=
  { s with runT := s.addr, pass := false, opc := 0, phase := .running .run }

/-- What RUN writes to its page: the encryption of the pattern. -/
def State.coded (s : State) : List Byte :=
  ecbBlocks (cipher (keyExpansion s.cfg.aesKey)) 4 fillPattern

theorem State.coded_length (s : State) : s.coded.length = 64 :=
  ecbBlocks_length (blockOf_length cipherState _) 4 _

theorem decoded_coded (s : State) :
    ecbBlocks (blockOf invCipherState (keyExpansion s.cfg.aesKey)) 4 s.coded = fillPattern :=
  ecbBlocks_undo (blockOf_length cipherState _) (fun _ hb => invCipher_cipher _ hb) 4 _
    fillPattern_length

/-- The kinds of the transactions of the erase half of a RUN. -/
def eraseKinds (k : Nat) : List Kind :=
  [Kind.writeEnable, Kind.sectorErase] ++ List.replicate (k + 1) Kind.readStatus ++ [Kind.quadIoRead]

/-- The kinds of the transactions of the program half of a RUN. -/
def programKinds (k : Nat) : List Kind :=
  [Kind.writeEnable, Kind.quadPageProgram] ++ List.replicate (k + 1) Kind.readStatus ++
    [Kind.quadIoRead]

section
variable {s : State} {k1 k2 : Nat}

/-- The whole sector lies in the device: the sizes are multiples of each other (00_scope R10). -/
theorem GoodRun.sector_in_device (g : GoodRun s k1 k2) :
    s.addr.toNat + s.cfg.sectorSize ≤ s.cfg.deviceSize := by
  have hin : s.addr.toNat < s.cfg.deviceSize :=
    (Nat.lt_add_of_pos_right (by decide)).trans_le g.in_device
  obtain ⟨m, hm⟩ := Nat.dvd_of_mod_eq_zero g.config.device_sector
  obtain ⟨j, hj⟩ := Nat.dvd_of_mod_eq_zero g.aligned
  rw [hm, hj] at hin ⊢
  have hlt : j < m := lt_of_mul_lt_mul_left hin (Nat.zero_le _)
  calc s.cfg.sectorSize * j + s.cfg.sectorSize = s.cfg.sectorSize * (j + 1) := (Nat.mul_succ ..).symm
    _ ≤ s.cfg.sectorSize * m := Nat.mul_le_mul_left _ hlt

theorem GoodRun.page_aligned (g : GoodRun s k1 k2) : s.addr.toNat % pageSize = 0 :=
  Nat.mod_eq_zero_of_dvd ((Nat.dvd_of_mod_eq_zero g.config.sector_page).trans
    (Nat.dvd_of_mod_eq_zero g.aligned))

theorem GoodRun.page_in_sector (g : GoodRun s k1 k2) : 64 ≤ s.cfg.sectorSize := by
  refine Nat.le_of_dvd ?_ (Nat.dvd_of_mod_eq_zero g.config.sector_page)
  rw [g.config.sector_pow]
  exact Nat.two_pow_pos _

theorem GoodRun.start (g : GoodRun s k1 k2) : RunAt s.runStart 0 0 [] [] s.runStart where
  no_frame := g.no_frame
  running := rfl
  run := SafeRun.zero _
  opc := rfl

/-- Commands 0 to 4: the sector is erased and found erased. -/
theorem GoodRun.erases (g : GoodRun s k1 k2) :
    ∃ t, RunAt s.runStart 5 (2 + (k1 + 1) + 2) (eraseKinds k1) [] t ∧
      t.bufs = s.bufs.set .E (Buffer.ofBytes (List.replicate 64 erased)) ∧
      t.dev = s.dev.erasedAt s.cfg.sectorSize s.addr.toNat := by
  obtain ⟨t0, A0, hbufs0, hdev0⟩ := g.start.writeEnable rfl (by decide) (g.transport 0 (by omega))
    g.not_busy
  obtain ⟨t1, A1, hbufs1, hdev1⟩ := A0.sectorErase rfl (by decide) (g.transport 1 (by omega))
    (by rw [hdev0]; exact g.not_busy) g.aligned g.sector_in_device
  have hwel : t0.dev.wel = true := by rw [hdev0]
  obtain ⟨t2, A2, hbufs2, hdev2⟩ := A1.poll (k := k1) rfl g.budget1
    (fun i hi => g.transport (2 + i) (by omega)) (by rw [hdev1, Device.sectorErase_accepted hwel])
    (fun i hi => (congrArg s.wipAt (by simp)).trans (g.busy1 i hi))
    ((congrArg s.wipAt (by simp)).trans g.ready1)
  have herased : t2.dev = s.dev.erasedAt s.cfg.sectorSize s.addr.toNat := by
    rw [hdev2, hdev1, hdev0]
    rfl
  obtain ⟨t3, A3, hbufs3, hdev3⟩ := A2.quadIoRead rfl (by decide) (g.transport _ (by simp; omega))
    (by rw [hdev2]) g.in_device
  have hpage : t2.flashPage s.addr.toNat = List.replicate 64 erased := by
    refine State.flashPage_eq List.length_replicate fun i hi => ?_
    have hsector := g.page_in_sector
    rw [State.flashByte, herased, Device.readByte_erasedAt g.mem_wf, if_pos ⟨by omega, by omega⟩,
      List.getD_replicate _ hi]
  have hE : (t3.buf .E).bytes 0 64 = some (List.replicate 64 erased) := by
    rw [State.buf, hbufs3, Buffers.get_set_same, ← hpage]
    exact Buffer.bytes_ofBytes (State.flashPage_length ..)
  obtain ⟨t4, A4, hbufs4, hdev4⟩ := A3.chkff rfl (by decide) hE
  refine ⟨t4, A4, ?_, hdev4.trans (hdev3.trans herased)⟩
  rw [hbufs4, hbufs3, hbufs2, hbufs1, hbufs0, ← hpage]
  rfl

/-- Commands 5 and 6: the pattern is written and encrypted. -/
theorem GoodRun.encrypts (g : GoodRun s k1 k2) :
    ∃ t, RunAt s.runStart 7 (2 + (k1 + 1) + 4) (eraseKinds k1) [.dump .encrypted s.coded] t ∧
      t.bufs = ((s.bufs.set .E (Buffer.ofBytes (List.replicate 64 erased))).set .P
        (Buffer.ofBytes fillPattern)).set .C (Buffer.ofBytes s.coded) ∧
      t.dev = s.dev.erasedAt s.cfg.sectorSize s.addr.toNat := by
  obtain ⟨t4, A4, hbufs4, hdev4⟩ := g.erases
  obtain ⟨t5, A5, hbufs5, hdev5⟩ := A4.fill rfl (by decide)
  have hP : (t5.buf .P).bytes 0 64 = some fillPattern := by
    rw [State.buf, hbufs5, Buffers.get_set_same]
    exact Buffer.bytes_ofBytes fillPattern_length
  obtain ⟨t6, A6, hbufs6, hdev6⟩ := A5.engine rfl (by decide) rfl hP g.engine.1
  refine ⟨t6, A6, ?_, hdev6.trans (hdev5.trans hdev4)⟩
  rw [hbufs6, hbufs5, hbufs4]
  rfl

/-- Commands 7 to 10: the page is programmed and read back. -/
theorem GoodRun.programs (g : GoodRun s k1 k2) :
    ∃ t, RunAt s.runStart 11 (2 + (k1 + 1) + 6 + (k2 + 1) + 1) (eraseKinds k1 ++ programKinds k2)
        [.dump .encrypted s.coded] t ∧
      t.bufs = (((s.bufs.set .E (Buffer.ofBytes (List.replicate 64 erased))).set .P
        (Buffer.ofBytes fillPattern)).set .C (Buffer.ofBytes s.coded)).set .R
        (Buffer.ofBytes s.coded) ∧
      t.dev = (s.dev.erasedAt s.cfg.sectorSize s.addr.toNat).programmedAt s.addr.toNat s.coded := by
  obtain ⟨t6, A6, hbufs6, hdev6⟩ := g.encrypts
  have hb6 : t6.dev.busy = false := by
    rw [hdev6]
    rfl
  obtain ⟨t7, A7, hbufs7, hdev7⟩ := A6.writeEnable rfl (by decide)
    (g.transport _ (by simp [eraseKinds]; omega)) hb6
  have hC : (t7.buf .C).bytes 0 64 = some s.coded := by
    rw [State.buf, hbufs7, hbufs6, Buffers.get_set_same]
    exact Buffer.bytes_ofBytes s.coded_length
  obtain ⟨t8, A8, hbufs8, hdev8⟩ := A7.quadPageProgram rfl (by decide)
    (g.transport _ (by simp [eraseKinds]; omega)) (by rw [hdev7]; exact hb6) g.page_aligned
    g.in_device hC
  have hwel : t7.dev.wel = true := by rw [hdev7]
  obtain ⟨t9, A9, hbufs9, hdev9⟩ := A8.poll (k := k2) rfl g.budget2
    (fun i hi => g.transport _ (by simp [eraseKinds]; omega))
    (by rw [hdev8, Device.pageProgram_accepted hwel])
    (fun i hi => (congrArg s.wipAt (by simp [eraseKinds])).trans (g.busy2 i hi))
    ((congrArg s.wipAt (by simp [eraseKinds])).trans g.ready2)
  have hprogrammed : t9.dev =
      (s.dev.erasedAt s.cfg.sectorSize s.addr.toNat).programmedAt s.addr.toNat s.coded := by
    rw [hdev9, hdev8, hdev7, hdev6]
    rfl
  obtain ⟨t10, A10, hbufs10, hdev10⟩ := A9.quadIoRead rfl (by decide)
    (g.transport _ (by simp [eraseKinds]; omega)) (by rw [hdev9]) g.in_device
  have hpage : t9.flashPage s.addr.toNat = s.coded := by
    refine State.flashPage_eq s.coded_length fun i hi => ?_
    rw [State.flashByte, hprogrammed, Device.readByte_programmedAt_erasedAt g.mem_wf
      (s.coded_length.trans_le g.page_in_sector), s.coded_length, if_pos ⟨by omega, by omega⟩,
      Nat.add_sub_cancel_left]
  have hkinds : eraseKinds k1 ++ [.writeEnable] ++ [.quadPageProgram] ++
      List.replicate (k2 + 1) .readStatus ++ [.quadIoRead] = eraseKinds k1 ++ programKinds k2 := by
    simp [programKinds]
  refine ⟨t10, hkinds ▸ A10, ?_, hdev10.trans hprogrammed⟩
  rw [hbufs10, hbufs9, hbufs8, hbufs7, hbufs6]
  exact congrArg _ (congrArg _ hpage)

/-- The last command of the program completes, and the RUN passes (44_orchestrator R275). -/
theorem step_pass {r t : State} {n : Nat} {ks : List Kind} {ds : List LogEvent}
    (A : RunAt r 12 n ks ds t) (hx : exec (.cmp .D .P) t = .next t) :
    step t = .next ({ t with opc := 13 } : State).runPass := by
  have hphase := A.phase.trans A.running
  have hprog : program t.opc = some (.cmp .D .P) := by rw [A.opc]; rfl
  rw [step_program (A.frame.trans A.no_frame) hphase hprog, hx]
  simp [Result.mapNext, afterRunStep, hphase, State.runAdvance, A.opc, opcNext]

/-- Commands 11 and 12: the page is decrypted and compared, and the RUN passes. -/
theorem GoodRun.passes (g : GoodRun s k1 k2) :
    ∃ t, SafeRun (13 + k1 + k2) s.runStart ({ t with opc := 13 } : State).runPass ∧
      Work (eraseKinds k1 ++ programKinds k2)
        [.dump .encrypted s.coded, .dump .decrypted fillPattern] s.runStart t ∧
      t.bufs = ((((s.bufs.set .E (Buffer.ofBytes (List.replicate 64 erased))).set .P
        (Buffer.ofBytes fillPattern)).set .C (Buffer.ofBytes s.coded)).set .R
        (Buffer.ofBytes s.coded)).set .D (Buffer.ofBytes fillPattern) ∧
      t.dev = (s.dev.erasedAt s.cfg.sectorSize s.addr.toNat).programmedAt s.addr.toNat s.coded := by
  obtain ⟨t10, A10, hbufs10, hdev10⟩ := g.programs
  have hR : (t10.buf .R).bytes 0 64 = some s.coded := by
    rw [State.buf, hbufs10, Buffers.get_set_same]
    exact Buffer.bytes_ofBytes s.coded_length
  obtain ⟨t, A, hbufs, hdev⟩ := A10.engine (i := .dec .R .D 4) rfl (by decide) rfl hR g.engine.2
  have hplain : ecbBlocks (blockOf invCipherState (keyExpansion s.runStart.cfg.aesKey)) 4 s.coded =
      fillPattern := decoded_coded s
  rw [hplain] at A hbufs
  rw [hbufs10] at hbufs
  have hD : bufRead .D 0 pageSize t = .ok fillPattern := by
    refine bufRead_eq_ok ?_
    rw [State.buf, hbufs, Buffers.get_set_same]
    exact Buffer.bytes_ofBytes fillPattern_length
  have hP : bufRead .P 0 pageSize t = .ok fillPattern := by
    refine bufRead_eq_ok ?_
    simp only [State.buf, hbufs, Buffers.get_set, reduceCtorEq, if_false, if_true]
    exact Buffer.bytes_ofBytes fillPattern_length
  have hcmp : exec (.cmp .D .P) t = .next t :=
    guardFault_eq_next.2 ⟨_, hD, guardFault_eq_next.2 ⟨_, hP, if_pos rfl ▸ rfl⟩⟩
  refine ⟨t, ?_, A.toWork, hbufs, hdev.trans hdev10⟩
  have hrun := A.run.step_snoc (step_pass A hcmp)
  have hsteps : 2 + (k1 + 1) + 6 + (k2 + 1) + 1 + 1 + 1 = 13 + k1 + k2 := by omega
  exact hsteps ▸ hrun

end

/-- Settles O49, from the state in which a good RUN has passed. -/
theorem runEndToEnd : Obligations.RunEndToEnd := by
  intro s k1 k2 g target pattern coded
  obtain ⟨t, hrun, w, hbufs, hdev⟩ := g.passes
  have harray (x : Nat) : t.flashByte x =
      if s.addr.toNat ≤ x ∧ x < s.addr.toNat + 64 then s.coded.getD (x - s.addr.toNat) 0
      else if s.addr.toNat ≤ x ∧ x < s.addr.toNat + s.cfg.sectorSize then erased
      else s.flashByte x := by
    rw [State.flashByte, hdev, Device.readByte_programmedAt_erasedAt g.mem_wf
      (s.coded_length.trans_le g.page_in_sector), s.coded_length]
    rfl
  have hsector := g.page_in_sector
  refine ⟨s.runStart, _, rfl, hrun, rfl, rfl, rfl, w.err, w.fault, fun i hi => ?page,
    fun x hlow hhigh => ?sector, fun x hx => ?rest, fun i hi => ?bufs, ?log, w.runT, w.addr, w.inbox⟩
  case page =>
    show some (t.flashByte _) = s.coded[i]?
    rw [harray, if_pos ⟨by omega, by omega⟩, Nat.add_sub_cancel_left,
      List.getElem?_eq_getElem (s.coded_length.symm ▸ hi), List.getElem_eq_getD 0]
  case sector =>
    show t.flashByte x = _
    rw [harray, if_neg (by omega), if_pos ⟨by omega, hhigh⟩]
  case rest =>
    show t.flashByte x = _
    rw [harray, if_neg (by omega), if_neg (by omega)]
  case bufs =>
    show (t.bufs.get .P)[i] = _ ∧ (t.bufs.get .D)[i] = _ ∧ (t.bufs.get .E)[i] = _ ∧
      (t.bufs.get .R)[i] = s.coded[i]? ∧ (t.bufs.get .C)[i] = s.coded[i]?
    have hpattern : fillPattern[i]? = some (BitVec.ofNat 8 i) := by
      rw [fillPattern, List.getElem?_map, List.getElem?_range hi]
      rfl
    have herased : (List.replicate 64 erased)[i]? = some 0xFF := by
      rw [List.getElem?_replicate, if_pos hi]
    simp only [hbufs, Buffers.get_set, reduceCtorEq, if_false, if_true, Buffer.getElem_ofBytes, hpattern,
      herased, and_self]
  case log =>
    show t.log ++ [.pass] = _
    rw [w.log]
    exact List.append_assoc ..

end Sys2Proof.Machine
end

section
/-! The command word (30_encoding R100 to R109): the decoder by `OP`, and the one table of fields that the
decoder reads and the encoder writes. -/

namespace Sys2Proof

open Machine (toNat_or_shiftLeft toNat_extractLsb')
open Laws.EncodedForm (bufId_le)

/-! ## A word as its fields -/

section
variable {op a b n : Nat}

theorem commandWord_toNat (hop : op < 16) (ha : a < 16) (hb : b < 16) (hn : n < 16) :
    (commandWord op a b n).toNat = op + a * 2 ^ 4 + b * 2 ^ 8 + n * 2 ^ 12 := by
  have small {k : Nat} (h : k < 16) : (BitVec.ofNat 32 k).toNat = k := Nat.mod_eq_of_lt (by omega)
  have upToA := toNat_or_shiftLeft (k := 4) (small hop) (small ha) (by omega) (by omega)
  have upToB := toNat_or_shiftLeft (k := 8) upToA (small hb) (by omega) (by omega)
  exact toNat_or_shiftLeft (k := 12) upToB (small hn) (by omega) (by omega)

/-- The fields read back are the fields written (30_encoding R100). -/
theorem fields_commandWord (hop : op < 16) (ha : a < 16) (hb : b < 16) (hn : n < 16) :
    fieldZ (commandWord op a b n) = 0 ∧ fieldOp (commandWord op a b n) = op ∧
      fieldA (commandWord op a b n) = a ∧ fieldB (commandWord op a b n) = b ∧
      fieldN (commandWord op a b n) = n := by
  simp only [fieldZ, fieldOp, fieldA, fieldB, fieldN, toNat_extractLsb', commandWord_toNat hop ha hb hn]
  omega

end

/-- A word whose upper half is 0 is the word of its fields. -/
theorem commandWord_fields {w : Word} (hz : fieldZ w = 0) :
    commandWord (fieldOp w) (fieldA w) (fieldB w) (fieldN w) = w := by
  apply BitVec.eq_of_toNat_eq
  rw [commandWord_toNat (BitVec.isLt _) (BitVec.isLt _) (BitVec.isLt _) (BitVec.isLt _)]
  simp only [fieldZ, fieldOp, fieldA, fieldB, fieldN, toNat_extractLsb'] at hz ⊢
  have := w.isLt
  omega

theorem upperHalf_eq_zero {w : Word} : w.extractLsb' 16 16 = 0 ↔ fieldZ w = 0 :=
  BitVec.toNat_inj.symm

@[simp] theorem bufOfId_bufId (x : BufId) : bufOfId (bufId x) = x := by
  cases x <;> rfl

theorem bufId_bufOfId {a : Nat} (h : a ≤ 4) : bufId (bufOfId a) = a := by
  interval_cases a <;> rfl

/-! ## The decoder, one equation for each `OP` -/

section
variable {a b : Nat}

theorem decodeXact_noKind (ha : 4 < a) : decodeXact a b = .error .operandRange := if_pos ha

theorem decodeXact_unusedField (ha : a ≤ 2) (hb : b ≠ 0) :
    decodeXact a b = .error .reservedBits := by
  unfold decodeXact
  rw [if_neg (by omega), if_pos ⟨ha, hb⟩]

theorem decodeXact_noBuffer (ha : a = 3 ∨ a = 4) (hb : 4 < b) :
    decodeXact a b = .error .operandRange := by
  unfold decodeXact
  rw [if_neg (by omega), if_neg (by omega), if_pos (by omega)]

end

section
variable {w : Word}

theorem decodeCommand_upperHalf (hz : fieldZ w ≠ 0) : decodeCommand w = .error .reservedBits :=
  if_pos hz

variable (hz : fieldZ w = 0)
include hz

theorem decodeCommand_enc (hop : fieldOp w = 1) :
    decodeCommand w = if fieldA w > 4 ∨ fieldB w > 4 ∨ fieldN w > 4 then .error .operandRange
      else .ok (.enc (bufOfId (fieldA w)) (bufOfId (fieldB w)) (fieldN w)) := by
  simp [decodeCommand, hz, hop]

theorem decodeCommand_dec (hop : fieldOp w = 2) :
    decodeCommand w = if fieldA w > 4 ∨ fieldB w > 4 ∨ fieldN w > 4 then .error .operandRange
      else .ok (.dec (bufOfId (fieldA w)) (bufOfId (fieldB w)) (fieldN w)) := by
  simp [decodeCommand, hz, hop]

theorem decodeCommand_xact (hop : fieldOp w = 3) :
    decodeCommand w = if fieldN w ≠ 0 then .error .reservedBits
      else decodeXact (fieldA w) (fieldB w) := by
  simp [decodeCommand, hz, hop]

theorem decodeCommand_xact_kind (hop : fieldOp w = 3) (hn : fieldN w = 0) :
    decodeCommand w = decodeXact (fieldA w) (fieldB w) := by
  rw [decodeCommand_xact hz hop, if_neg (not_not.2 hn)]

theorem decodeCommand_poll (hop : fieldOp w = 4) :
    decodeCommand w = if fieldA w ≠ 0 ∨ fieldB w ≠ 0 ∨ fieldN w ≠ 0 then .error .reservedBits
      else .ok .poll := by
  simp [decodeCommand, hz, hop]

theorem decodeCommand_chkff (hop : fieldOp w = 5) :
    decodeCommand w = if fieldB w ≠ 0 ∨ fieldN w ≠ 0 then .error .reservedBits
      else if fieldA w > 4 then .error .operandRange
      else .ok (.chkff (bufOfId (fieldA w))) := by
  simp [decodeCommand, hz, hop]

theorem decodeCommand_fill (hop : fieldOp w = 6) :
    decodeCommand w = if fieldB w ≠ 0 ∨ fieldN w ≠ 0 then .error .reservedBits
      else if fieldA w > 4 then .error .operandRange
      else .ok (.fill (bufOfId (fieldA w))) := by
  simp [decodeCommand, hz, hop]

theorem decodeCommand_cmp (hop : fieldOp w = 7) :
    decodeCommand w = if fieldN w ≠ 0 then .error .reservedBits
      else if fieldA w > 4 ∨ fieldB w > 4 then .error .operandRange
      else .ok (.cmp (bufOfId (fieldA w)) (bufOfId (fieldB w))) := by
  simp [decodeCommand, hz, hop]

theorem decodeCommand_run (hop : fieldOp w = 8) :
    decodeCommand w = if fieldA w ≠ 0 ∨ fieldB w ≠ 0 ∨ fieldN w ≠ 0 then .error .reservedBits
      else .ok .run := by
  simp [decodeCommand, hz, hop]

theorem decodeCommand_reserved (hop : fieldOp w = 0 ∨ 9 ≤ fieldOp w) :
    decodeCommand w = .error .reservedOpcode := by
  rcases hop with hop | hop
  · simp [decodeCommand, hz, hop]
  · obtain ⟨k, hk⟩ := Nat.exists_eq_add_of_le' hop
    simp [decodeCommand, hz, hk]

end

/-! ## The table of the fields -/

/-- The rows of 30_encoding R102, R105 with the ranges of R108: `OP`, `A`, `B`, `N` and the instruction
they stand for. -/
inductive FieldRow : Nat → Nat → Nat → Nat → Instr → Prop
  | enc {a b n} (ha : a ≤ 4) (hb : b ≤ 4) (hn : n ≤ 4) :
      FieldRow 1 a b n (.enc (bufOfId a) (bufOfId b) n)
  | dec {a b n} (ha : a ≤ 4) (hb : b ≤ 4) (hn : n ≤ 4) :
      FieldRow 2 a b n (.dec (bufOfId a) (bufOfId b) n)
  | xactReadStatus : FieldRow 3 0 0 0 .xactReadStatus
  | xactWriteEnable : FieldRow 3 1 0 0 .xactWriteEnable
  | xactSectorErase : FieldRow 3 2 0 0 .xactSectorErase
  | xactQuadPageProgram {b} (hb : b ≤ 4) : FieldRow 3 3 b 0 (.xactQuadPageProgram (bufOfId b))
  | xactQuadIoRead {b} (hb : b ≤ 4) : FieldRow 3 4 b 0 (.xactQuadIoRead (bufOfId b))
  | poll : FieldRow 4 0 0 0 .poll
  | chkff {a} (ha : a ≤ 4) : FieldRow 5 a 0 0 (.chkff (bufOfId a))
  | fill {a} (ha : a ≤ 4) : FieldRow 6 a 0 0 (.fill (bufOfId a))
  | cmp {a b} (ha : a ≤ 4) (hb : b ≤ 4) : FieldRow 7 a b 0 (.cmp (bufOfId a) (bufOfId b))
  | run : FieldRow 8 0 0 0 .run

section
variable {op a b n : Nat} {i : Instr}

theorem FieldRow.fields_lt (h : FieldRow op a b n i) : op < 16 ∧ a < 16 ∧ b < 16 ∧ n < 16 := by
  cases h <;> omega

/-- The encoder writes the fields of the row. -/
theorem FieldRow.encode_eq (h : FieldRow op a b n i) : encode i = .command (commandWord op a b n) := by
  cases h <;> simp [encode, bufId_bufOfId, *]

theorem exists_fieldRow_of_command (hwf : i.WellFormed) (hi : i.isFrame = false) :
    ∃ op a b n, FieldRow op a b n i := by
  cases i with
  | enc x y n =>
    exact ⟨_, _, _, _, by simpa using FieldRow.enc (bufId_le x) (bufId_le y) (of_decide_eq_true hwf)⟩
  | dec x y n =>
    exact ⟨_, _, _, _, by simpa using FieldRow.dec (bufId_le x) (bufId_le y) (of_decide_eq_true hwf)⟩
  | xactReadStatus => exact ⟨_, _, _, _, .xactReadStatus⟩
  | xactWriteEnable => exact ⟨_, _, _, _, .xactWriteEnable⟩
  | xactSectorErase => exact ⟨_, _, _, _, .xactSectorErase⟩
  | xactQuadPageProgram x =>
    exact ⟨_, _, _, _, by simpa using FieldRow.xactQuadPageProgram (bufId_le x)⟩
  | xactQuadIoRead x => exact ⟨_, _, _, _, by simpa using FieldRow.xactQuadIoRead (bufId_le x)⟩
  | poll => exact ⟨_, _, _, _, .poll⟩
  | chkff x => exact ⟨_, _, _, _, by simpa using FieldRow.chkff (bufId_le x)⟩
  | fill x => exact ⟨_, _, _, _, by simpa using FieldRow.fill (bufId_le x)⟩
  | cmp x y => exact ⟨_, _, _, _, by simpa using FieldRow.cmp (bufId_le x) (bufId_le y)⟩
  | run => exact ⟨_, _, _, _, .run⟩
  | flashReadStatus | flashWriteEnable | flashSectorErase | flashQuadPageProgram | flashQuadIoRead =>
    cases hi

/-- The fields that have a row are those of 30_encoding R106 to R108. -/
theorem exists_fieldRow_iff : (∃ i, FieldRow op a b n i) ↔
    ((op = 1 ∨ op = 2) ∧ a ≤ 4 ∧ b ≤ 4 ∧ n ≤ 4) ∨
    (op = 3 ∧ n = 0 ∧ ((a ≤ 2 ∧ b = 0) ∨ ((a = 3 ∨ a = 4) ∧ b ≤ 4))) ∨
    ((op = 4 ∨ op = 8) ∧ a = 0 ∧ b = 0 ∧ n = 0) ∨
    ((op = 5 ∨ op = 6) ∧ a ≤ 4 ∧ b = 0 ∧ n = 0) ∨
    (op = 7 ∧ a ≤ 4 ∧ b ≤ 4 ∧ n = 0) := by
  constructor
  · rintro ⟨i, h⟩
    cases h <;> simp [*]
  · rintro (⟨rfl | rfl, ha, hb, hn⟩ | ⟨rfl, rfl, ⟨ha, rfl⟩ | ⟨rfl | rfl, hb⟩⟩ |
      ⟨rfl | rfl, rfl, rfl, rfl⟩ | ⟨rfl | rfl, ha, rfl, rfl⟩ | ⟨rfl, ha, hb, rfl⟩)
    · exact ⟨_, .enc ha hb hn⟩
    · exact ⟨_, .dec ha hb hn⟩
    · interval_cases a
      · exact ⟨_, .xactReadStatus⟩
      · exact ⟨_, .xactWriteEnable⟩
      · exact ⟨_, .xactSectorErase⟩
    · exact ⟨_, .xactQuadPageProgram hb⟩
    · exact ⟨_, .xactQuadIoRead hb⟩
    · exact ⟨_, .poll⟩
    · exact ⟨_, .run⟩
    · exact ⟨_, .chkff ha⟩
    · exact ⟨_, .fill ha⟩
    · exact ⟨_, .cmp ha hb⟩

theorem fieldRow_of_decodeXact (h : decodeXact a b = .ok i) : FieldRow 3 a b 0 i := by
  unfold decodeXact at h
  split_ifs at h with ha hlow hhigh
  split at h <;> cases h
  case h_1 | h_2 | h_3 =>
    obtain rfl : b = 0 := by omega
    constructor
  case h_4 => exact .xactQuadPageProgram (by omega)
  case h_5 =>
    obtain rfl : a = 4 := by grind
    exact .xactQuadIoRead (by omega)

end

/-! ## The decoder reads the table -/

section
variable {w : Word} {i : Instr}

theorem fieldRow_of_decodeCommand (hz : fieldZ w = 0) (h : decodeCommand w = .ok i) :
    FieldRow (fieldOp w) (fieldA w) (fieldB w) (fieldN w) i := by
  match hop : fieldOp w with
  | 1 =>
    rw [decodeCommand_enc hz hop] at h
    split_ifs at h
    cases h
    exact .enc (by omega) (by omega) (by omega)
  | 2 =>
    rw [decodeCommand_dec hz hop] at h
    split_ifs at h
    cases h
    exact .dec (by omega) (by omega) (by omega)
  | 3 =>
    rw [decodeCommand_xact hz hop] at h
    split_ifs at h with hn
    rw [not_not.1 hn]
    exact fieldRow_of_decodeXact h
  | 4 =>
    rw [decodeCommand_poll hz hop] at h
    split_ifs at h
    cases h
    obtain ⟨ha, hb, hn⟩ : fieldA w = 0 ∧ fieldB w = 0 ∧ fieldN w = 0 := by omega
    rw [ha, hb, hn]
    exact .poll
  | 5 =>
    rw [decodeCommand_chkff hz hop] at h
    split_ifs at h
    cases h
    obtain ⟨hb, hn⟩ : fieldB w = 0 ∧ fieldN w = 0 := by omega
    rw [hb, hn]
    exact .chkff (by omega)
  | 6 =>
    rw [decodeCommand_fill hz hop] at h
    split_ifs at h
    cases h
    obtain ⟨hb, hn⟩ : fieldB w = 0 ∧ fieldN w = 0 := by omega
    rw [hb, hn]
    exact .fill (by omega)
  | 7 =>
    rw [decodeCommand_cmp hz hop] at h
    split_ifs at h with hn
    cases h
    rw [not_not.1 hn]
    exact .cmp (by omega) (by omega)
  | 8 =>
    rw [decodeCommand_run hz hop] at h
    split_ifs at h
    cases h
    obtain ⟨ha, hb, hn⟩ : fieldA w = 0 ∧ fieldB w = 0 ∧ fieldN w = 0 := by omega
    rw [ha, hb, hn]
    exact .run
  | 0 | n + 9 =>
    rw [decodeCommand_reserved hz (by omega)] at h
    cases h

/-- Every check of 30_encoding R109 passes on a row. -/
theorem FieldRow.decodeCommand_eq (hz : fieldZ w = 0)
    (h : FieldRow (fieldOp w) (fieldA w) (fieldB w) (fieldN w) i) : decodeCommand w = .ok i := by
  generalize hop : fieldOp w = op, hA : fieldA w = a, hB : fieldB w = b, hN : fieldN w = n at h
  cases h <;> simp [decodeCommand, decodeXact, *]

/-- What decodes is what the row of the word's fields stands for (30_encoding R109). -/
theorem decodeCommand_eq_ok :
    decodeCommand w = .ok i ↔
      fieldZ w = 0 ∧ FieldRow (fieldOp w) (fieldA w) (fieldB w) (fieldN w) i := by
  by_cases hz : fieldZ w = 0
  · exact ⟨fun h => ⟨hz, fieldRow_of_decodeCommand hz h⟩, fun h => h.2.decodeCommand_eq hz⟩
  · simp [decodeCommand_upperHalf hz, hz]

theorem FieldRow.decodeCommand_commandWord {op a b n : Nat} (h : FieldRow op a b n i) :
    decodeCommand (commandWord op a b n) = .ok i := by
  obtain ⟨hop, ha, hb, hn⟩ := h.fields_lt
  obtain ⟨hZ, hOp, hA, hB, hN⟩ := fields_commandWord hop ha hb hn
  rw [decodeCommand_eq_ok, hOp, hA, hB, hN]
  exact ⟨hZ, h⟩

end

/-- Settles O8: a word decodes exactly when its upper half is 0 and its fields have a row. -/
theorem exactlyTheLegalWordsDecode : Obligations.ExactlyTheLegalWordsDecode := by
  intro w op a b n
  have hrow : (∃ i, decode (.command w) = .ok i) ↔ fieldZ w = 0 ∧ ∃ i, FieldRow op a b n i :=
    (exists_congr fun _ => decodeCommand_eq_ok).trans exists_and_left
  rw [hrow, upperHalf_eq_zero, exists_fieldRow_iff]

/-! ## The refusals -/

theorem decodeFrame_unknown {op : Byte} {rest : List Byte}
    (hop : op ∉ [0x05, 0x06, 0xDC, 0x34, 0xEC]) :
    decodeFrame (op :: rest) = .error .unknownFlashOpcode := by
  obtain ⟨h05, h06, haddressed⟩ :
      op ≠ 0x05 ∧ op ≠ 0x06 ∧ ¬ (op = 0xDC ∨ op = 0x34 ∨ op = 0xEC) := by
    simpa using hop
  exact (if_neg h05).trans ((if_neg h06).trans (if_neg haddressed))

/-- Settles O9: the equation of the word's `OP`, with the check that fails. -/
theorem firstFailingCheckNamesTheRefusal : Obligations.FirstFailingCheckNamesTheRefusal := by
  refine ⟨fun w => ⟨fun hz => decodeCommand_upperHalf (mt upperHalf_eq_zero.2 hz), fun hz => ?_⟩,
    fun _ _ hop => decodeFrame_unknown hop⟩
  replace hz := upperHalf_eq_zero.1 hz
  refine ⟨decodeCommand_reserved hz, ?_, ?_, ?_, ?_, ?_, ?_, ?_, ?_, ?_, ?_⟩
  · rintro (hop | hop) hr
    · exact (decodeCommand_enc hz hop).trans (if_pos hr)
    · exact (decodeCommand_dec hz hop).trans (if_pos hr)
  · exact fun hop hn => (decodeCommand_xact hz hop).trans (if_pos hn)
  · exact fun hop hn ha => (decodeCommand_xact_kind hz hop hn).trans (decodeXact_noKind ha)
  · exact fun hop hn ha hb => (decodeCommand_xact_kind hz hop hn).trans (decodeXact_unusedField ha hb)
  · exact fun hop hn ha hb => (decodeCommand_xact_kind hz hop hn).trans (decodeXact_noBuffer ha hb)
  · rintro (hop | hop) hr
    · exact (decodeCommand_poll hz hop).trans (if_pos hr)
    · exact (decodeCommand_run hz hop).trans (if_pos hr)
  · rintro (hop | hop) hr
    · exact (decodeCommand_chkff hz hop).trans (if_pos hr)
    · exact (decodeCommand_fill hz hop).trans (if_pos hr)
  · intro hop hb hn ha
    have hzero := not_or.2 ⟨not_not.2 hb, not_not.2 hn⟩
    rcases hop with hop | hop
    · exact (decodeCommand_chkff hz hop).trans ((if_neg hzero).trans (if_pos ha))
    · exact (decodeCommand_fill hz hop).trans ((if_neg hzero).trans (if_pos ha))
  · exact fun hop hn => (decodeCommand_cmp hz hop).trans (if_pos hn)
  · exact fun hop hn hr =>
      (decodeCommand_cmp hz hop).trans ((if_neg (not_not.2 hn)).trans (if_pos hr))

end Sys2Proof
end

section
/-! Frames (30_encoding R115 to R118), and the two round trips between instructions and their encodings. -/

namespace Sys2Proof

/-! ## The address phase -/

theorem addrOfBytes_addrBytes32 (a : Word) :
    addrOfBytes (a.extractLsb' 24 8) (a.extractLsb' 16 8) (a.extractLsb' 8 8) (a.extractLsb' 0 8) = a := by
  have upper : a.extractLsb' 24 8 ++ a.extractLsb' 16 8 = a.extractLsb' 16 16 :=
    BitVec.extractLsb'_append_extractLsb'_eq_extractLsb' rfl
  have upToB1 : a.extractLsb' 16 16 ++ a.extractLsb' 8 8 = a.extractLsb' 8 24 :=
    BitVec.extractLsb'_append_extractLsb'_eq_extractLsb' rfl
  have whole : a.extractLsb' 8 24 ++ a.extractLsb' 0 8 = a.extractLsb' 0 32 :=
    BitVec.extractLsb'_append_extractLsb'_eq_extractLsb' rfl
  rw [addrOfBytes, upper, upToB1, whole, BitVec.extractLsb'_eq_self]

theorem addrBytes32_addrOfBytes (b3 b2 b1 b0 : Byte) :
    addrBytes32 (addrOfBytes b3 b2 b1 b0) = [b3, b2, b1, b0] := by
  have hb0 : (addrOfBytes b3 b2 b1 b0).extractLsb' 0 8 = b0 := BitVec.extractLsb'_append_eq_right
  have hb1 : (addrOfBytes b3 b2 b1 b0).extractLsb' 8 8 = b1 :=
    (BitVec.extractLsb'_append_eq_of_le (by decide)).trans BitVec.extractLsb'_append_eq_right
  have hb2 : (addrOfBytes b3 b2 b1 b0).extractLsb' 16 8 = b2 :=
    (BitVec.extractLsb'_append_eq_of_le (by decide)).trans
      ((BitVec.extractLsb'_append_eq_of_le (by decide)).trans BitVec.extractLsb'_append_eq_right)
  have hb3 : (addrOfBytes b3 b2 b1 b0).extractLsb' 24 8 = b3 :=
    (BitVec.extractLsb'_append_eq_of_le (by decide)).trans
      ((BitVec.extractLsb'_append_eq_of_le (by decide)).trans BitVec.extractLsb'_append_eq_left)
  rw [addrBytes32, hb0, hb1, hb2, hb3]

/-! ## Frames and their instructions -/

section
variable {op : Byte} {i : Instr}

/-- An address phase of 32 bits is read as the address (30_encoding R125). -/
theorem decodeFrame_addressed (a : Word) (rest : List Byte)
    (hop : op = 0xDC ∨ op = 0x34 ∨ op = 0xEC) :
    decodeFrame (op :: addrBytes32 a ++ rest) = decodeAddressed op a rest := by
  rcases hop with rfl | rfl | rfl <;> simp [decodeFrame, addrBytes32, addrOfBytes_addrBytes32]

/-- A well-formed flash instruction is what its frame decodes to. -/
theorem decode_encode_of_isFrame (hi : i.isFrame = true) (hwf : i.WellFormed) :
    decode (encode i) = .ok i := by
  cases i with
  | flashReadStatus => rfl
  | flashWriteEnable => rfl
  | flashSectorErase a =>
    have h := decodeFrame_addressed a [] (.inl rfl)
    rwa [List.append_nil] at h
  | flashQuadPageProgram a data =>
    exact (decodeFrame_addressed a data (.inr (.inl rfl))).trans (if_pos (of_decide_eq_true hwf))
  | flashQuadIoRead a mode =>
    refine (decodeFrame_addressed a mode.toList (.inr (.inr rfl))).trans ?_
    cases mode <;> rfl
  | _ => cases hi

theorem encode_of_decodeAddressed {a : Word} {rest : List Byte}
    (h : decodeAddressed op a rest = .ok i) :
    encode i = .frame (op :: addrBytes32 a ++ rest) := by
  unfold decodeAddressed at h
  split_ifs at h with hErase hrest hProgram hlen
  · cases h
    simp [encode, hErase, hrest]
  · cases h
    simp [encode, hProgram]
  · split at h <;> cases h
    case h_1 | h_2 => simp [encode, *]

theorem encode_of_decodeFrame {bytes : List Byte} (h : decodeFrame bytes = .ok i) :
    encode i = .frame bytes := by
  rcases bytes with _ | ⟨op, rest⟩
  · cases h
  · simp only [decodeFrame] at h
    split_ifs at h with hStatus hnil hEnable hnil'
    · cases h
      simp [encode, hStatus, hnil]
    · cases h
      simp [encode, hEnable, hnil']
    · split at h
      · rw [encode_of_decodeAddressed h, addrBytes32_addrOfBytes]
        rfl
      · cases h

end

/-! ## The round trips -/

/-- Settles O5: a command by its row of the field table, a flash instruction by its frame. -/
theorem decodeOfEncode : Obligations.DecodeOfEncode := by
  intro i hwf
  by_cases hi : i.isFrame = true
  · exact decode_encode_of_isFrame hi hwf
  · obtain ⟨op, a, b, n, hrow⟩ := exists_fieldRow_of_command hwf (Bool.eq_false_of_not_eq_true hi)
    rw [hrow.encode_eq]
    exact hrow.decodeCommand_commandWord

/-- Settles O6: a word that decodes is the word of its row, a frame that decodes is the one written. -/
theorem encodeOfDecode : Obligations.EncodeOfDecode
  | .command w, i, h => by
    obtain ⟨hz, hrow⟩ := decodeCommand_eq_ok.1 h
    exact ⟨decodeCommand_wellFormed h, by rw [hrow.encode_eq, commandWord_fields hz]⟩
  | .frame _, _, h => ⟨(decodeFrame_ok h).2, encode_of_decodeFrame h⟩

/-- Settles O7: each written word is the encoding of the instruction it stands for. -/
theorem writtenWordsDecode : Obligations.WrittenWordsDecode :=
  ⟨decodeOfEncode (.enc .P .C 4) rfl, decodeOfEncode (.dec .R .D 4) rfl,
    decodeOfEncode .xactReadStatus rfl, decodeOfEncode .xactWriteEnable rfl,
    decodeOfEncode .xactSectorErase rfl, decodeOfEncode (.xactQuadPageProgram .C) rfl,
    decodeOfEncode (.xactQuadIoRead .E) rfl, decodeOfEncode .poll rfl, decodeOfEncode (.chkff .E) rfl,
    decodeOfEncode (.fill .P) rfl, decodeOfEncode (.cmp .D .P) rfl, decodeOfEncode .run rfl,
    decodeOfEncode .flashReadStatus rfl, decodeOfEncode .flashWriteEnable rfl,
    decodeOfEncode (.flashSectorErase 0x00040000) rfl,
    decodeOfEncode (.flashQuadPageProgram 0x140 (List.replicate 64 0xA5)) rfl,
    decodeOfEncode (.flashQuadIoRead 0x12345678 (some 0xFF)) rfl⟩

end Sys2Proof
end

section
/-! What the core drives on the bus is a frame (30_encoding R116 to R118). -/

namespace Sys2Proof.Machine

/-- The flash instruction a transaction of the core means (30_encoding R118). -/
def sentInstr (c : Config) (k : Kind) (a : Word) (out : List Byte) : Instr :=
  match k with
  | .readStatus => .flashReadStatus
  | .writeEnable => .flashWriteEnable
  | .sectorErase => .flashSectorErase a
  | .quadPageProgram => .flashQuadPageProgram a out
  | .quadIoRead => .flashQuadIoRead a (coreMode c)

theorem frameBytes_quadIoReadWith (m : Option Byte) (a : Word) :
    frameBytes (quadIoReadWith m) a [] = 0xEC :: addrBytes32 a ++ m.toList := by
  cases m <;> simp [frameBytes, quadIoReadWith, addrBytes]

/-- The core drives the frame of the instruction it means. -/
theorem encode_sentInstr (c : Config) {k : Kind} (a : Word) {out : List Byte}
    (hout : k ≠ .quadPageProgram → out = []) :
    encode (sentInstr c k a out) = .frame (frameBytes (descriptor c k) a out) := by
  cases k with
  | quadPageProgram => rfl
  | quadIoRead =>
    rw [hout nofun]
    exact congrArg Encoded.frame (frameBytes_quadIoReadWith (coreMode c) a).symm
  | readStatus | writeEnable | sectorErase =>
    rw [hout nofun]
    rfl

theorem addrBytes_bits (a : Word) (size : AddrSize) : 8 * (addrBytes a size).length = size.bits := by
  cases size <;> rfl

/-- The bits the core drives, for a descriptor valid by 41_descriptors R182 (a) and (b). -/
theorem frameBytes_bits {d : CommandDescriptor} (hinstr : d.instruction.disabled = false)
    (haddr : d.address.disabled = true → d.address.size = .none) (a : Word) (out : List Byte) :
    8 * (frameBytes d a out).length =
      8 + d.address.size.bits + (if d.modeBits.disabled then 0 else 8) + 8 * out.length := by
  have haddrBytes : (if d.address.disabled then [] else addrBytes a d.address.size) =
      addrBytes a d.address.size := by
    split_ifs with h
    · rw [haddr h]
      rfl
    · rfl
  rw [frameBytes, haddrBytes, ← addrBytes_bits a]
  cases d.modeBits.disabled <;> simp [hinstr] <;> omega

/-- Settles O28: what the core drives is an encoding, so it decodes; the payload and the read data make up
the data phase. -/
theorem transactionsSendDecodableFrames : Obligations.TransactionsSendDecodableFrames := by
  intro c k a out hlen
  constructor
  · have hout : k ≠ .quadPageProgram → out = [] := fun hk =>
      List.length_eq_zero_iff.1 (hlen.trans (if_neg hk))
    have hwf : (sentInstr c k a out).WellFormed := by
      cases k with
      | quadPageProgram => exact decide_eq_true hlen
      | _ => rfl
    have hdecode := decodeOfEncode (sentInstr c k a out) hwf
    rw [encode_sentInstr c a hout] at hdecode
    cases k <;> exact hdecode
  · have hdata : 8 * out.length + (if k.reads then 8 * k.len else 0) = 8 * k.len := by
      cases k <;> simp [hlen, Kind.reads, Kind.len, pageSize]
    have hinstr : (descriptor c k).instruction.disabled = false := by
      cases k <;> rfl
    have haddr : (descriptor c k).address.disabled = true → (descriptor c k).address.size = .none := by
      cases k <;> simp [descriptor, noAddress, quadIoReadWith]
    rw [frameBytes_bits hinstr haddr, frameBits, Nat.add_assoc, hdata]

end Sys2Proof.Machine
end

section
/-! The assembler (30_encoding R130, R131). -/

namespace Sys2Proof.Machine

/-- A command word with its fields in the order of the formulas of 30_encoding R130. -/
theorem commandWord_eq (op a b n : Nat) :
    commandWord op a b n = BitVec.ofNat 32 op ||| BitVec.ofNat 32 n <<< 12 ||| BitVec.ofNat 32 b <<< 8
      ||| BitVec.ofNat 32 a <<< 4 := by
  unfold commandWord
  ac_rfl

theorem encode_xactQuadPageProgram (x : BufId) :
    encode (.xactQuadPageProgram x) = .command (0x00000033 ||| BitVec.ofNat 32 (bufId x) <<< 8) := by
  cases x <;> rfl

theorem encode_xactQuadIoRead (x : BufId) :
    encode (.xactQuadIoRead x) = .command (0x00000043 ||| BitVec.ofNat 32 (bufId x) <<< 8) := by
  cases x <;> rfl

theorem commandMove_eq {i : Instr} {w : Word} (h : encode i = .command w) :
    commandMove i = [.writeCmd w] := by
  rw [commandMove, h]

/-- Settles O10: the words by `commandWord_eq`, the moves by `commandMove_eq`. -/
theorem assemblerWordsAndExpansions : Obligations.AssemblerWordsAndExpansions := by
  refine ⟨fun x y n _ => ⟨congrArg _ (commandWord_eq ..), congrArg _ (commandWord_eq ..),
      encode_xactQuadPageProgram x, encode_xactQuadIoRead x, ?_, ?_, ?_⟩,
    ⟨rfl, rfl, rfl, rfl, rfl⟩, fun i w v h => ⟨commandMove_eq h, rfl⟩,
    fun a b c => ⟨rfl, rfl, rfl, ?_, ?_, rfl, rfl, rfl⟩⟩
  · simp [encode, commandWord_eq]
  · simp [encode, commandWord_eq]
  · simp [encode, commandWord_eq]
  · rw [AsmLine.moves, commandMove_eq (encode_xactQuadPageProgram b)]
  · rw [AsmLine.moves, commandMove_eq (encode_xactQuadIoRead b)]

end Sys2Proof.Machine
end

section
/-! Output block `i` comes from input block `i` alone (40_cipher R166). -/

namespace Sys2Proof.Machine

/-- Block `i` of the output is the block function of block `i` of the input. -/
theorem ecbBlocks_block {f : List Byte → List Byte} (hf : ∀ b, (f b).length = blockSize) {n : Nat} :
    ∀ {input : List Byte} {i : Nat}, i < n →
      ((ecbBlocks f n input).drop (blockSize * i)).take blockSize =
        f ((input.drop (blockSize * i)).take blockSize) := by
  induction n with
  | zero => exact fun h => absurd h (Nat.not_lt_zero _)
  | succ n ih =>
    intro input i hi
    cases i with
    | zero => exact List.take_left' (hf _)
    | succ i =>
      rw [ecbBlocks, Nat.mul_succ, Nat.add_comm, ← List.drop_drop, List.drop_left' (hf _),
        ← List.drop_drop]
      exact ih (Nat.lt_of_succ_lt_succ hi)

/-- Settles O20: both block functions give 16 bytes. -/
theorem outputBlocksAreIndependent : Obligations.OutputBlocksAreIndependent := fun w n input =>
  have hcipher := blockOf_length cipherState w
  have hinvCipher := blockOf_length invCipherState w
  ⟨ecbBlocks_length hcipher n input, ecbBlocks_length hinvCipher n input,
    fun _ hi => ⟨ecbBlocks_block hcipher hi, ecbBlocks_block hinvCipher hi⟩⟩

end Sys2Proof.Machine
end

section
/-! The start of a RUN (44_orchestrator R272). -/

namespace Sys2Proof.Machine

/-- Settles O46: `execRun`, and the phase that chooses between `RUN_T` and `ADDR`. -/
theorem runStarts : Obligations.RunStarts := by
  refine ⟨fun _ => rfl, fun s => ⟨fun hp => ?_, fun hp => ?_⟩⟩
  · simp [State.txnAddr, hp, Phase.inRun]
  · simp [State.txnAddr, hp, Phase.inRun]

end Sys2Proof.Machine
end

section
/-! The field and the tables (40_cipher R143 to R145, R155). -/

namespace Sys2Proof.Machine

/-! ## The field -/

/-- Shifting in nine bits and reducing by 0x11B is the shift of the byte, reduced by 0x1B. -/
theorem xtime_eq_nine_bits (a : Byte) :
    xtime a = ((a.setWidth 9 <<< 1) ^^^ (if a.getLsbD 7 then 0x11B#9 else 0x000#9)).setWidth 8 := by
  have hshift : (a.setWidth 9 <<< 1).setWidth 8 = a <<< 1 := by simp
  rw [xtime, BitVec.setWidth_xor, hshift]
  cases a.getLsbD 7 <;> rfl

/-- The recursion over the bits of `b` is the left-to-right sum of the terms `xtime^i(a)`. -/
theorem xor_gmulBits_eq_foldl (n : Nat) (a b acc : Byte) :
    acc ^^^ gmulBits n a b =
      (List.range n).foldl (fun acc i => acc ^^^ (if b.getLsbD i then xtime^[i] a else 0)) acc := by
  induction n generalizing a b acc with
  | zero => simp [gmulBits]
  | succ n ih =>
    rw [gmulBits, ← BitVec.xor_assoc, ih, List.range_succ_eq_map, List.foldl_cons, List.foldl_map]
    simp [Nat.add_comm 1]

/-- Settles O11: the reduction in nine bits, and the bits of `b` one by one. -/
theorem fieldArithmetic : Obligations.FieldArithmetic := by
  refine ⟨xtime_eq_nine_bits, fun a b => ?_, by decide⟩
  rw [← xor_gmulBits_eq_foldl]
  exact BitVec.zero_xor.symm

/-! ## The S-box -/

/-- On a finite type a map that is undone also undoes. -/
theorem rightInverse_of_leftInverse {α : Type} [Finite α] {f g : α → α} (h : Function.LeftInverse g f) :
    Function.RightInverse g f :=
  h.rightInverse_of_surjective (Finite.surjective_of_injective h.injective)

theorem sbox_invSbox (x : Byte) : sbox (invSbox x) = x :=
  rightInverse_of_leftInverse invSbox_sbox x

/-- The affine map of 40_cipher R144 taken back: the byte whose image under it is `z`. -/
def invAffine (z : Byte) : Byte :=
  z.rotateLeft 1 ^^^ z.rotateLeft 3 ^^^ z.rotateLeft 6 ^^^ 0x05

/-- Bit `i` of the affine map of 40_cipher R144, on the bits of `invAffine z`. -/
theorem affine_invAffine (z : Byte) (i : Nat) (hi : i < 8) :
    z.getLsbD i =
      ((invAffine z).getLsbD i ^^ (invAffine z).getLsbD ((i + 4) % 8)
        ^^ (invAffine z).getLsbD ((i + 5) % 8) ^^ (invAffine z).getLsbD ((i + 6) % 8)
        ^^ (invAffine z).getLsbD ((i + 7) % 8) ^^ (0x63 : Byte).getLsbD i) := by
  revert z i
  decide +kernel

theorem invAffine_sbox_zero : invAffine (sbox 0) = 0 := by decide

/-- Without its affine map the S-box is the field inverse. -/
theorem gmul_invAffine_sbox {x : Byte} (h : x ≠ 0) : gmul x (invAffine (sbox x)) = 1 := by
  revert x
  decide +kernel

theorem sbox_ne_self (x : Byte) : sbox x ≠ x := by
  revert x
  decide +kernel

/-- Settles O12: the inverse of `x` is the S-box entry with the affine map taken back. -/
theorem sboxIsInverseThenAffine : Obligations.SboxIsInverseThenAffine :=
  ⟨fun x => ⟨invAffine (sbox x), fun h => h ▸ invAffine_sbox_zero, gmul_invAffine_sbox,
      affine_invAffine (sbox x)⟩,
    fun x => ⟨invSbox_sbox x, sbox_invSbox x, sbox_ne_self x⟩⟩

end Sys2Proof.Machine
end

section
/-! The rounds on the state array (40_cipher R146, R147, R150 to R154). -/

namespace Sys2Proof.Machine

/-! ## State arrays are finitely many -/

theorem Col.finite : Finite Col :=
  Finite.of_injective (fun c => (c.r0, c.r1, c.r2, c.r3)) fun a b h => by
    cases a; cases b; simpa using h

theorem AesState.finite : Finite AesState :=
  have := Col.finite
  Finite.of_injective (fun s => (s.c0, s.c1, s.c2, s.c3)) fun s t h => by
    cases s; cases t; simpa using h

theorem mixColumns_invMixColumns (s : AesState) : mixColumns (invMixColumns s) = s :=
  have := AesState.finite
  rightInverse_of_leftInverse invMixColumns_mixColumns s

theorem cipherState_invCipherState (w : List Col) (s : AesState) :
    cipherState w (invCipherState w s) = s :=
  have := AesState.finite
  rightInverse_of_leftInverse (invCipherState_cipherState w) s

/-! ## ShiftRows and MixColumns -/

/-- Settles O13: byte `r + 4c` for each of the sixteen positions of a block. -/
theorem shiftRowsRotateRows : Obligations.ShiftRowsRotateRows := by
  refine ⟨fun s r c hr hc => ?_, invShiftRows_shiftRows, by decide⟩
  interval_cases r <;> interval_cases c <;> exact ⟨rfl, rfl⟩

/-- Settles O14: one map undoes the other by linearity, and the other way round since the state arrays are
finitely many. -/
theorem invMixColumnsUndoesMixColumns : Obligations.InvMixColumnsUndoesMixColumns :=
  ⟨fun _ _ _ _ => ⟨rfl, rfl⟩, fun _ _ _ _ => ⟨rfl, rfl⟩,
    fun s => ⟨invMixColumns_mixColumns s, mixColumns_invMixColumns s⟩, by decide⟩

/-! ## The cipher -/

/-- Settles O16: the rounds by their recursion, the published examples by computation. -/
theorem cipherFollowsItsRounds : Obligations.CipherFollowsItsRounds :=
  ⟨fun _ _ => ⟨rfl, rfl⟩, by decide +kernel, by decide +kernel⟩

theorem cipher_invCipher {b : List Byte} (w : List Col) (h : b.length = blockSize) :
    cipher w (invCipher w b) = b := by
  rw [cipher, invCipher, loadBlock_storeBlock, cipherState_invCipherState, storeBlock_loadBlock h]

/-- Settles O17: each of the two undoes the other, so the block that `Cipher` takes to `y` is
`InvCipher` of `y`. -/
theorem cipherAndInverseUndoEachOther : Obligations.CipherAndInverseUndoEachOther := by
  intro key
  have hdec : ∀ x : List Byte, x.length = 16 →
      invCipher (keyExpansion key) (cipher (keyExpansion key) x) = x :=
    fun _ => invCipher_cipher (keyExpansion key)
  have henc : ∀ x : List Byte, x.length = 16 →
      cipher (keyExpansion key) (invCipher (keyExpansion key) x) = x :=
    fun _ => cipher_invCipher (keyExpansion key)
  refine ⟨fun x hx => ⟨storeBlock_length _, storeBlock_length _, hdec x hx, henc x hx⟩,
    fun y hy => ⟨invCipher (keyExpansion key) y, ⟨storeBlock_length _, henc y hy⟩, ?_⟩⟩
  rintro x ⟨hx, rfl⟩
  exact (hdec x hx).symm

end Sys2Proof.Machine
end

section
/-! The key expansion (40_cipher R148). -/

namespace Sys2Proof.Machine

/-! ## The words of a schedule -/

theorem expandWords_length (n : Nat) (ws : List Col) :
    (expandWords n ws).length = n + ws.length := by
  induction n generalizing ws with
  | zero => simp [expandWords]
  | succ n ih => rw [expandWords, ih, List.length_cons]; omega

theorem expandWords_add (m n : Nat) (ws : List Col) :
    expandWords (m + n) ws = expandWords n (expandWords m ws) := by
  induction m generalizing ws with
  | zero => rw [Nat.zero_add, expandWords]
  | succ m ih => rw [Nat.succ_add, expandWords, expandWords, ih]

/-- An expansion only adds words. -/
theorem suffix_expandWords (n : Nat) (ws : List Col) : ws <:+ expandWords n ws := by
  induction n generalizing ws with
  | zero => exact List.suffix_rfl
  | succ n ih => exact (List.suffix_cons _ _).trans (ih _)

/-- The next word goes in front of all the words before it, and stays there. -/
theorem nextWord_cons_suffix {m n : Nat} (h : m < n) (ws : List Col) :
    nextWord (m + ws.length) (expandWords m ws) :: expandWords m ws <:+ expandWords n ws := by
  have hn : n = m + ((n - m - 1) + 1) := by omega
  rw [hn, expandWords_add, expandWords, expandWords_length]
  exact suffix_expandWords _ _

/-- The key's four columns, the last one first. -/
def keyColumns (key : Vector Byte 16) : List Col :=
  [colAt key.toList 12, colAt key.toList 8, colAt key.toList 4, colAt key.toList 0]

theorem keyExpansion_eq (key : Vector Byte 16) :
    keyExpansion key = (expandWords 40 (keyColumns key)).reverse := rfl

theorem keyExpansion_length (key : Vector Byte 16) : (keyExpansion key).length = 44 := by
  rw [keyExpansion_eq, List.length_reverse, expandWords_length]
  rfl

theorem colAt_toList (key : Vector Byte 16) {i : Nat} (h : i + 3 < 16) :
    colAt key.toList i = ⟨key[i], key[i + 1], key[i + 2], key[i + 3]⟩ := by
  have hbyte (j : Nat) (hj : j < 16) : key.toList.getD j 0 = key[j] := by
    rw [List.getD_eq_getElem _ _ (by simpa using hj), Vector.getElem_toList]
  rw [colAt, hbyte i (by omega), hbyte (i + 1) (by omega), hbyte (i + 2) (by omega), hbyte (i + 3) h]

/-- The first four words are the key's columns. -/
theorem keyExpansion_key (key : Vector Byte 16) {i : Nat} (h : i < 4) :
    (keyExpansion key)[i]? = some (colAt key.toList (4 * i)) := by
  obtain ⟨new, hnew⟩ := suffix_expandWords 40 (keyColumns key)
  rw [keyExpansion_eq, ← hnew, List.reverse_append]
  interval_cases i <;> rfl

/-- Word `i` stands right after the four words it is made from. -/
theorem keyExpansion_window (key : Vector Byte 16) {i : Nat} (h4 : 4 ≤ i) (h44 : i < 44) :
    ∃ old a b c d later, old.length = i - 4 ∧
      keyExpansion key = old ++ a :: b :: c :: d :: nextWord i [d, c, b, a] :: later := by
  obtain ⟨m, rfl⟩ := Nat.exists_eq_add_of_le' h4
  obtain ⟨later, hlater⟩ := nextWord_cons_suffix (Nat.lt_of_add_lt_add_right h44) (keyColumns key)
  have hlen := expandWords_length m (keyColumns key)
  match hwords : expandWords m (keyColumns key), hlen with
  | d :: c :: b :: a :: old, hlen =>
    refine ⟨old.reverse, a, b, c, d, later.reverse, ?_, ?_⟩
    · rw [List.length_reverse, Nat.add_sub_cancel]
      simpa [keyColumns] using hlen
    · rw [keyExpansion_eq, ← hlater, hwords]
      simp only [List.reverse_append, List.reverse_cons, List.append_assoc, List.singleton_append]
      rfl

theorem roundKey_words (w : List Col) {r : Nat} (h : 4 * r + 3 < w.length) :
    w[4 * r]? = some (roundKey w r).c0 ∧ w[4 * r + 1]? = some (roundKey w r).c1 ∧
      w[4 * r + 2]? = some (roundKey w r).c2 ∧ w[4 * r + 3]? = some (roundKey w r).c3 := by
  have hword (i : Nat) (hi : i < w.length) : w[i]? = some (w.getD i Col.zero) := by
    rw [List.getElem?_eq_getElem hi, List.getD_eq_getElem _ _ hi]
  exact ⟨hword _ (by omega), hword _ (by omega), hword _ (by omega), hword _ h⟩

/-- Settles O15: the key's words, the window of each later word, and the round keys. -/
theorem keyExpansionRecurrence : Obligations.KeyExpansionRecurrence := by
  refine ⟨fun key => ⟨keyExpansion_length key, fun i hi => ?_, fun i h4 h44 => ?_, fun r hr => ?_⟩,
    fun _ _ _ _ => ⟨rfl, rfl⟩, by decide, by decide +kernel⟩
  · rw [keyExpansion_key key hi, colAt_toList key (by omega)]
  · obtain ⟨old, a, b, c, d, later, hold, hw⟩ := keyExpansion_window key h4 h44
    refine ⟨a, d, ?_, ?_, ?_⟩
    all_goals rw [hw, List.getElem?_append_right (by omega), hold]
    · rw [Nat.sub_self]; rfl
    · rw [show i - 1 - (i - 4) = 3 by omega]; rfl
    · rw [show i - (i - 4) = 4 by omega]; rfl
  · exact roundKey_words _ (by rw [keyExpansion_length]; omega)

end Sys2Proof.Machine
end

section
/-! What ENC and DEC do (40_cipher R160 to R164). -/

namespace Sys2Proof.Machine

/-- The blocks of a command fit the buffer. -/
theorem blockBytes_fit {n : Nat} (h : n ≤ 4) : 0 + blockBytes n ≤ 64 := by
  simp only [blockBytes, blockSize]
  omega

/-- Bytes put into a buffer are read back. -/
theorem Buffer.bytes_put (buf : Buffer) {off n : Nat} {v : List Byte} (hv : v.length = n)
    (h : off + n ≤ 64) : (buf.put off v).bytes off n = some v := by
  refine (Buffer.bytes_eq_some_iff_cells h).2 ⟨hv, fun i hi => ?_⟩
  rw [Buffer.getElem_put, if_pos (by omega), Nat.add_sub_cancel_left]

section
variable {f : List Col → AesState → AesState} {tag : DumpTag} {src dst : BufId} {n : Nat} {s : State}
  {input : List Byte}

/-- A failed ENC or DEC leaves its destination unwritten and halts (40_cipher R162, R163). -/
theorem engineCommand_failed (hn : n ≠ 0) (hsrc : (s.buf src).bytes 0 (blockBytes n) = some input)
    (hfail : s.engineAt 0 = false) :
    engineCommand f tag src dst n s = .next
      { s with
        bufs := s.bufs.set dst ((s.buf dst).undef 0 (blockBytes n))
        ks := .uninit
        aes := none
        engineDraws := s.engineDraws.rest
        err := some .cipherEngineError
        fault := true
        phase := .halted
        log := s.log ++ [.fail .cipherEngineError] } := by
  have hfinal : s.engineFinal.engineAt 0 = false := hfail
  rw [engineCommand, if_neg hn, bufRead_eq_ok hsrc]
  simp only [guardFault, engineCall_eq, engineEnd, hfinal, Bool.false_eq_true, if_false]
  rfl

/-- What a command after a good ENC or DEC finds (40_cipher R162, R163). -/
theorem engineCommand_good_effect (f : List Col → AesState → AesState) (tag : DumpTag) (dst : BufId)
    (hn : n ≠ 0) (hmax : n ≤ 4) (hsrc : (s.buf src).bytes 0 (blockBytes n) = some input)
    (hok : s.engineAt 0 = true) :
    ∃ t, engineCommand f tag src dst n s = .next t ∧
      (t.buf dst).bytes 0 (blockBytes n) =
        some (ecbBlocks (blockOf f (keyExpansion s.cfg.aesKey)) n input) ∧
      (∀ b, b ≠ dst → t.buf b = s.buf b) ∧ t.cfg = s.cfg ∧ t.err = s.err ∧
      ∀ i, t.engineAt i = s.engineAt (i + 1) := by
  refine ⟨_, engineCommand_good hn hsrc hok, ?_, fun b hb => Buffers.get_set_other _ _ hb, rfl, rfl,
    fun i => Draws.look_rest _ _ i⟩
  rw [State.buf, Buffers.get_set_same]
  exact Buffer.bytes_put _ (ecbBlocks_length (blockOf_length f _) n input) (blockBytes_fit hmax)

end

/-- Settles O21: the guard of `engineCommand` on the block count. -/
theorem noBlockNoEffect : Obligations.NoBlockNoEffect := fun _ _ _ => ⟨rfl, rfl⟩

/-- Settles O19: both commands are `engineCommand`, with a good report. -/
theorem encDecResult : Obligations.EncDecResult := by
  intro s src dst n input hn _ hsrc hok
  have hne : n ≠ 0 := by omega
  exact ⟨engineCommand_good hne hsrc hok, engineCommand_good hne hsrc hok⟩

/-- Settles O22: both commands are `engineCommand`, with a failed report. -/
theorem engineErrorHalts : Obligations.EngineErrorHalts := by
  intro s src dst n input hn _ hsrc hfail
  have hne : n ≠ 0 := by omega
  exact ⟨engineCommand_failed hne hsrc hfail, engineCommand_failed hne hsrc hfail⟩

/-- Settles O24: DEC finds what ENC wrote, under the same key, and undoes it block by block. -/
theorem encThenDecGivesThePlaintext : Obligations.EncThenDecGivesThePlaintext := by
  intro s src mid dst n input hn hmax hsrc hok hok'
  have hne : n ≠ 0 := by omega
  have hlen : input.length = blockBytes n := Buffer.bytes_length hsrc (blockBytes_fit hmax)
  obtain ⟨t, henc, hmid, hframe, hcfg, herr, hdraws⟩ :=
    engineCommand_good_effect cipherState .encrypted mid hne hmax hsrc hok
  obtain ⟨u, hdec, hdst, hframe', -, herr', -⟩ :=
    engineCommand_good_effect invCipherState .decrypted dst hne hmax hmid ((hdraws 0).trans hok')
  rw [hcfg] at hdst
  have hundo := ecbBlocks_undo (blockOf_length cipherState (keyExpansion s.cfg.aesKey))
    (fun _ hb => invCipher_cipher _ hb) n input hlen
  exact ⟨t, u, henc, hdec, hdst.trans (congrArg some hundo),
    fun b hb hb' => (hframe' b hb').trans (hframe b hb), herr'.trans herr⟩

end Sys2Proof.Machine
end

section
/-! The record of a transaction, its clocks, and the validity of a descriptor (41_descriptors R182, R184,
42_transport R205, R206, R211, R212). -/

namespace Sys2Proof.Machine

/-! ## The phases of a record -/

theorem addr_clocks (a : Word) (size : AddrSize) (w : BusWidth) (r : DataRate) :
    (BusPhase.addr (addrBytes a size) w r).clocks = size.bits / bitsPerClock w r := by
  rw [BusPhase.clocks, addrBytes_bits]

/-- The phases that are there, with their clocks: none of the clocks depends on the address. -/
theorem phaseRecords_eq (d : CommandDescriptor) (a : Word) (k : Kind) :
    phaseRecords d a k =
      (if d.instruction.disabled then []
        else [⟨.instr d.instruction.opcode d.instruction.width d.instruction.rate,
          8 / bitsPerClock d.instruction.width d.instruction.rate⟩]) ++
      (if d.address.disabled then []
        else [⟨.addr (addrBytes a d.address.size) d.address.width d.address.rate,
          d.address.size.bits / bitsPerClock d.address.width d.address.rate⟩]) ++
      (if d.modeBits.disabled then []
        else [⟨.mode d.modeBits.value d.modeBits.width d.modeBits.rate,
          8 / bitsPerClock d.modeBits.width d.modeBits.rate⟩]) ++
      (if d.dummyCycles.count > 0 then
        [⟨.dummy d.dummyCycles.count d.dummyCycles.width, d.dummyCycles.count⟩] else []) ++
      (if k.len > 0 then
        [⟨.data k.dir k.len d.data.width d.data.rate,
          8 * k.len / bitsPerClock d.data.width d.data.rate⟩] else []) := by
  simp only [phaseRecords, phasesOf, List.map_append, apply_ite (List.map _), List.map_nil,
    List.map_singleton, addr_clocks]
  rfl

/-- A record keeps the bytes read exactly for a good transaction of a kind that reads (42_transport R206). -/
theorem txnRecord_eq (d : CommandDescriptor) (k : Kind) (a : Word) (out : List Byte) (ok : Bool)
    (input : List Byte) :
    txnRecord d k a out ok input =
      ⟨k, d.instruction.opcode, addrBytes a d.address.size, phaseRecords d a k, out,
        if k.reads then (if ok then some input else none) else none, ok⟩ := by
  cases hreads : k.reads <;> simp [txnRecord, hreads]

theorem coreMode_present {c : Config} (h : c.modePhase = true) : coreMode c = some 0xFF := if_pos h

theorem coreMode_absent {c : Config} (h : c.modePhase = false) : coreMode c = none := by
  simp [coreMode, h]

/-- Settles O25: the phases as the table's fields give them, for QuadIoRead in each setting of the mode
phase. -/
theorem recordPhases : Obligations.RecordPhases := by
  intro c a out input ok
  simp only [txnRecord_eq, phaseRecords_eq, descriptor]
  refine ⟨rfl, rfl, rfl, rfl, fun hmode => ?_, fun hmode => ?_⟩
  · rw [coreMode_present hmode]
    rfl
  · rw [coreMode_absent hmode]
    rfl

/-! ## Validity -/

theorem wholeClocks_iff {bits : Nat} {w : BusWidth} {r : DataRate} :
    wholeClocks bits w r = true ↔ bits % bitsPerClock w r = 0 := beq_iff_eq

/-- 41_descriptors R182 (a). -/
theorem addrPhase_present_iff (p : AddrPhase) :
    p.disabled = (p.size == .none) ↔ (p.disabled = true ↔ p.size = .none) := by
  rw [Bool.eq_iff_iff, beq_iff_eq]

theorem validDescriptor_quadIoReadWith (m : Option Byte) :
    validDescriptor (quadIoReadWith m) .quadIoRead = true := by
  simp only [validDescriptor, quadIoReadWith]
  cases m.isNone <;> decide

theorem validDescriptor_descriptor (c : Config) (k : Kind) :
    validDescriptor (descriptor c k) k = true := by
  cases k with
  | quadIoRead => exact validDescriptor_quadIoReadWith (coreMode c)
  | readStatus | writeEnable | sectorErase | quadPageProgram =>
    simp only [descriptor]
    decide

/-- Settles O26: the conjuncts of `validDescriptor` read as propositions, and the five kinds one by one. -/
theorem descriptorValidity : Obligations.DescriptorValidity := by
  refine ⟨fun d k => ?_, validDescriptor_descriptor,
    fun c => List.all_eq_true.2 fun k _ => validDescriptor_descriptor c k⟩
  simp only [validDescriptor, Bool.and_eq_true, Bool.or_eq_true, wholeClocks_iff, beq_iff_eq,
    addrPhase_present_iff, Bool.not_eq_true', or_iff_not_imp_left, Bool.not_eq_true, and_assoc, ne_eq]

/-! ## The clock count -/

/-- A disabled phase counts 0. -/
theorem sum_clocks_unless (b : Prop) [Decidable b] (p : PhaseRecord) :
    ((if b then [] else [p]).map PhaseRecord.clocks).sum = if b then 0 else p.clocks := by
  split_ifs
  · rfl
  · exact List.sum_singleton

/-- A phase with no clocks at length 0 adds its clocks whether it is there or not. -/
theorem sum_clocks_of_pos (p : BusPhase) {len clocks : Nat} (h : len = 0 → clocks = 0) :
    ((if len > 0 then [⟨p, clocks⟩] else []).map PhaseRecord.clocks).sum = clocks := by
  split_ifs with hlen
  · exact List.sum_singleton
  · exact (h (Nat.eq_zero_of_not_pos hlen)).symm

/-- The clock count of a transaction, phase by phase (42_transport R212). -/
theorem txnRecord_clocks (d : CommandDescriptor) (k : Kind) (a : Word) (out : List Byte) (ok : Bool)
    (input : List Byte) :
    (txnRecord d k a out ok input).clocks =
      (if d.instruction.disabled then 0 else 8 / bitsPerClock d.instruction.width d.instruction.rate) +
      (if d.address.disabled then 0
        else d.address.size.bits / bitsPerClock d.address.width d.address.rate) +
      (if d.modeBits.disabled then 0 else 8 / bitsPerClock d.modeBits.width d.modeBits.rate) +
      d.dummyCycles.count +
      8 * k.len / bitsPerClock d.data.width d.data.rate := by
  have hdata (h : k.len = 0) : 8 * k.len / bitsPerClock d.data.width d.data.rate = 0 := by simp [h]
  rw [TxnRecord.clocks, txnRecord_eq, phaseRecords_eq]
  simp only [List.map_append, List.sum_append, sum_clocks_unless]
  rw [sum_clocks_of_pos _ id, sum_clocks_of_pos _ hdata]

/-- Settles O27: the sum over the phases, and the five counts from the five records. -/
theorem clockCounts : Obligations.ClockCounts := by
  refine ⟨fun _ _ => rfl, fun d k a out input ok => txnRecord_clocks d k a out ok input,
    fun c a out input ok => ?_⟩
  obtain ⟨hstatus, henable, herase, hprogram, hmode, hnomode⟩ := recordPhases c a out input ok
  rw [hstatus, henable, herase, hprogram]
  refine ⟨rfl, rfl, rfl, rfl, ?_⟩
  cases h : c.modePhase with
  | true => rw [hmode h]; rfl
  | false => rw [hnomode h]; rfl

end Sys2Proof.Machine
end

section
/-! The checks of an XACT, in their order (42_transport R222). -/

namespace Sys2Proof.Machine

section
variable {s : State}

theorem programTxn_noPayload {a : Word} {payload : Except Fault (List Byte)} {f : Fault}
    (hal : a.toNat % pageSize = 0) (hfit : a.toNat + pageSize ≤ s.cfg.deviceSize)
    (hp : payload = .error f) : programTxn a payload s = .error f := by
  simp [programTxn, hal, Nat.not_lt.2 hfit, hp]

theorem bufRead_page_unwritten {b : BufId} (h : ∃ i, ∃ hi : i < 64, (s.buf b)[i] = none) :
    bufRead b 0 pageSize s = .error .unwrittenRead :=
  bufRead_eq_error ((Buffer.bytes_eq_none_iff_cells le_rfl).2 (by simpa using h))

theorem bufRead_page_written {b : BufId} (h : ∀ i, (hi : i < 64) → (s.buf b)[i] ≠ none) :
    ∃ v, bufRead b 0 pageSize s = .ok v := by
  cases hv : (s.buf b).bytes 0 pageSize with
  | some v => exact ⟨v, bufRead_eq_ok hv⟩
  | none =>
    obtain ⟨i, hi, hnone⟩ := (Buffer.bytes_eq_none_iff_cells le_rfl).1 hv
    exact absurd (by simpa using hnone) (h i hi)

end

/-- Settles O35: each XACT faults as the first check of its transaction that fails. -/
theorem checkOrderOfTransactions : Obligations.CheckOrderOfTransactions :=
  ⟨fun _ hal => guardFault_error (eraseTxn_misaligned hal),
    fun _ hal hout => guardFault_error (eraseTxn_outOfRange hal hout),
    fun _ hal hfit hb => guardFault_error (eraseTxn_busy hb hal hfit),
    fun _ _ hal => guardFault_error (programTxn_misaligned hal),
    fun _ _ hal hout => guardFault_error (programTxn_outOfRange hal hout),
    fun _ _ hal hfit hnone =>
      guardFault_error (programTxn_noPayload hal hfit (bufRead_page_unwritten hnone)),
    fun _ _ hal hfit hwritten hb =>
      have ⟨_, hv⟩ := bufRead_page_written hwritten
      guardFault_error (programTxn_busy hb hal hfit hv),
    fun _ _ hout => guardFault_error (readTxn_outOfRange hout),
    fun _ _ hfit hb => guardFault_error (readTxn_busy hb hfit),
    fun _ hb => guardFault_error (txn_busy hb nofun),
    fun s => ⟨_, guardFault_eq_next.2 ⟨_, statusTxn_eq s, rfl⟩⟩⟩

end Sys2Proof.Machine
end

section
/-! The transactions and the bus clocks of a good RUN (70_reset_and_hazards R360). -/

namespace Sys2Proof.Machine

/-- The bus clocks of a transaction of the table, by its kind (42_transport R212). -/
def kindClocks (c : Config) : Kind → Nat
  | .readStatus => 16
  | .writeEnable => 8
  | .sectorErase => 40
  | .quadPageProgram => 168
  | .quadIoRead => if c.modePhase then 150 else 148

theorem goodRecord_clocks (c : Config) (k : Kind) (a : Word) (out input : List Byte) :
    (goodRecord c k a out input).clocks = kindClocks c k := by
  obtain ⟨hstatus, henable, herase, hprogram, hread⟩ := clockCounts.2.2 c a out input true
  cases k with
  | readStatus => exact hstatus
  | writeEnable => exact henable
  | sectorErase => exact herase
  | quadPageProgram => exact hprogram
  | quadIoRead => exact hread

section
variable {c : Config} {new : List TxnRecord} {ks : List Kind}

theorem Records.map_kind (h : Records c new ks) : new.map TxnRecord.kind = ks := by
  induction h with
  | nil => rfl
  | cons hr _ ih =>
    obtain ⟨a, out, input, rfl⟩ := hr
    exact congrArg (_ :: ·) ih

theorem Records.traceClocks_eq (h : Records c new ks) :
    traceClocks new = (ks.map (kindClocks c)).sum := by
  induction h with
  | nil => rfl
  | cons hr _ ih =>
    obtain ⟨a, out, input, rfl⟩ := hr
    exact congrArg₂ (· + ·) (goodRecord_clocks ..) ih

end

/-- The clocks of either half of a RUN, the `k` busy polls apart. -/
theorem halfRun_clocks (c : Config) (middle : Kind) (k : Nat) :
    (([Kind.writeEnable, middle] ++ List.replicate (k + 1) Kind.readStatus ++
      [Kind.quadIoRead]).map (kindClocks c)).sum =
      24 + kindClocks c middle + kindClocks c .quadIoRead + 16 * k := by
  simp only [List.map_append, List.map_replicate, List.map_cons, List.map_nil, List.sum_append,
    List.sum_replicate, List.sum_cons, List.sum_nil, kindClocks, smul_eq_mul]
  omega

/-- Settles O50: the kinds and the clocks of the records of a good RUN. -/
theorem runBusCounts : Obligations.RunBusCounts := by
  intro s k1 k2 g
  obtain ⟨t, hrun, w, -, -⟩ := g.passes
  obtain ⟨new, htrace, hnew⟩ := w.trace
  refine ⟨s.runStart, _, new, rfl, hrun, htrace, ?kinds, ?number, ?clocks⟩
  case kinds =>
    rw [hnew.map_kind]
    simp [eraseKinds, programKinds]
  case number =>
    rw [hnew.length_eq]
    simp only [eraseKinds, programKinds, List.length_append, List.length_replicate, List.length_cons,
      List.length_nil]
    omega
  case clocks =>
    have hread : kindClocks s.runStart.cfg .quadIoRead = if s.cfg.modePhase then 150 else 148 := rfl
    rw [hnew.traceClocks_eq, List.map_append, List.sum_append, eraseKinds, programKinds,
      halfRun_clocks, halfRun_clocks, hread]
    simp only [kindClocks]
    split_ifs <;> omega

end Sys2Proof.Machine
end

section
/-! A transaction on the wire: as many bus clocks as its record counts, within one assertion of CS#
(42_transport R212, R214 to R218). -/

namespace Sys2Proof.Machine

/-! ## The bus clocks of bytes -/

theorem byteGroups_length (who : Driver) (w : BusWidth) (b : Byte) :
    (byteGroups who w b).length = 8 / lines w := by
  cases w <;> simp [byteGroups, lines]

/-- Two transfers to a clock; an odd last one takes a clock of its own. -/
theorem pairGroups_length (gs : List LineGroup) : (pairGroups gs).length = (gs.length + 1) / 2 := by
  induction gs using pairGroups.induct with
  | case1 => rfl
  | case2 g => simp [pairGroups]
  | case3 g h rest ih =>
    simp only [pairGroups, List.length_cons, ih]
    omega

theorem bytesWire_length (who : Driver) (w : BusWidth) (r : DataRate) (bytes : List Byte) :
    (bytesWire who w r bytes).length = 8 * bytes.length / bitsPerClock w r := by
  have hgroups : (bytes.flatMap (byteGroups who w)).length = bytes.length * (8 / lines w) := by
    simp [List.length_flatMap, byteGroups_length]
  cases r with
  | sdr =>
    rw [bytesWire, clocksOf, List.length_map, hgroups]
    cases w <;> simp only [bitsPerClock, lines, transfers] <;> omega
  | ddr =>
    rw [bytesWire, clocksOf, pairGroups_length, hgroups]
    cases w <;> simp only [bitsPerClock, lines, transfers] <;> omega

/-! ## The bus clocks of a record -/

section
variable {d : CommandDescriptor} {k : Kind} {a : Word} {out input : List Byte} {ok : Bool}

/-- The data phase of a transaction is that of its kind. -/
theorem data_mem_phasesOf {dir : Direction} {len : Nat} {w : BusWidth} {r : DataRate}
    (h : BusPhase.data dir len w r ∈ phasesOf d a k) : 0 < k.len ∧ dir = k.dir ∧ len = k.len := by
  simp only [phasesOf, List.mem_append, List.mem_ite_nil_left, List.mem_ite_nil_right,
    List.mem_singleton, reduceCtorEq, and_false, or_false, false_or, BusPhase.data.injEq] at h
  obtain ⟨hlen, hdir, heq, -, -⟩ := h
  exact ⟨hlen, hdir, heq⟩

/-- A phase takes the clocks that it counts, when the payload fills the data phase. -/
theorem phaseWire_length (hout : out.length = if k = .quadPageProgram then 64 else 0)
    (hin : input.length = if k.reads then k.len else 0) {p : BusPhase} (hp : p ∈ phasesOf d a k) :
    (phaseWire (txnRecord d k a out ok input) p).length = p.clocks := by
  cases p with
  | instr op w r => exact bytesWire_length .core w r [op]
  | addr bytes w r => exact bytesWire_length .core w r bytes
  | mode v w r => exact bytesWire_length .core w r [v]
  | dummy count w => exact List.length_replicate
  | data dir len w r =>
    obtain ⟨hlen, rfl, rfl⟩ := data_mem_phasesOf hp
    cases k with
    | writeEnable | sectorErase => cases hlen
    | quadPageProgram =>
      have hdata := bytesWire_length .core w r out
      rwa [hout] at hdata
    | readStatus | quadIoRead =>
      cases ok with
      | true =>
        have hdata := bytesWire_length .device w r input
        rwa [hin] at hdata
      | false => exact List.length_replicate

theorem txnRecord_wire :
    (txnRecord d k a out ok input).wire =
      (phasesOf d a k).flatMap (phaseWire (txnRecord d k a out ok input)) :=
  List.flatMap_map ..

theorem txnRecord_wire_length (hout : out.length = if k = .quadPageProgram then 64 else 0)
    (hin : input.length = if k.reads then k.len else 0) :
    (txnRecord d k a out ok input).wire.length = (txnRecord d k a out ok input).clocks := by
  have hclocks : (txnRecord d k a out ok input).clocks = ((phasesOf d a k).map BusPhase.clocks).sum :=
    congrArg List.sum (List.map_map ..)
  rw [txnRecord_wire, List.length_flatMap, hclocks]
  exact congrArg List.sum (List.map_congr_left fun p => phaseWire_length hout hin)

/-- The first eight clocks of a transaction of the table: its opcode on IO0 (42_transport R215). -/
theorem txnRecord_wire_take (c : Config) :
    (txnRecord (descriptor c k) k a out ok input).wire.take 8 =
      bytesWire .core .single .sdr [(descriptor c k).instruction.opcode] := by
  have hfirst : ∃ later, phasesOf (descriptor c k) a k =
      .instr (descriptor c k).instruction.opcode .single .sdr :: later := by
    cases k <;> exact ⟨_, rfl⟩
  obtain ⟨later, hphases⟩ := hfirst
  rw [txnRecord_wire, hphases]
  exact List.take_left' rfl

end

/-- Settles O29, for every descriptor: each phase takes the clocks that it counts. -/
theorem wireLengthIsClockCount : Obligations.WireLengthIsClockCount := fun _ _ _ _ _ _ =>
  txnRecord_wire_length

/-! ## Chip select over a trace -/

theorem assertions_traceWire (t : List TxnRecord) : assertions true (traceWire t) = t.length := by
  have hframes : assertions true (t.flatMap TxnRecord.framed) = t.length := by
    induction t with
    | nil => rfl
    | cons rec t ih =>
      rw [List.flatMap_cons, assertions_framed, ih, List.length_cons, Nat.add_comm]
  exact (Nat.zero_add _).trans hframes

theorem traceWire_getLast? (t : List TxnRecord) : (traceWire t).getLast? = some releaseTick := by
  obtain rfl | ⟨before, rec, rfl⟩ := t.eq_nil_or_concat'
  · rfl
  · rw [traceWire_append, List.flatMap_singleton, TxnRecord.framed, ← List.cons_append,
      ← List.append_assoc, List.getLast?_concat]

theorem clock_of_released {t : List TxnRecord} {tick : WireTick} (h : tick ∈ traceWire t)
    (hcs : tick.csN = true) : tick.clock = none := by
  rcases List.mem_cons.1 h with rfl | h
  · rfl
  · obtain ⟨rec, -, hrec⟩ := List.mem_flatMap.1 h
    exact framed_clock hrec hcs

/-- A transaction in a trace: its assertion of CS#, its clocks, its release. -/
theorem traceWire_append_cons (before after : List TxnRecord) (rec : TxnRecord) :
    traceWire (before ++ rec :: after) = traceWire before ++
      selectTick :: (rec.wire.map clockTick ++ releaseTick :: after.flatMap TxnRecord.framed) := by
  rw [traceWire_append, List.flatMap_cons, TxnRecord.framed, List.cons_append, List.append_assoc,
    List.singleton_append]

/-- Settles O59: chip select over a trace, around one transaction, and its first eight clocks. -/
theorem chipSelectFramesEachTransaction : Obligations.ChipSelectFramesEachTransaction :=
  ⟨fun t => ⟨assertions_traceWire t, rfl, traceWire_getLast? t, fun _ => clock_of_released⟩,
    fun before after rec => ⟨_, traceWire_append_cons before after rec⟩,
    fun c _ _ _ _ _ => txnRecord_wire_take c⟩

end Sys2Proof.Machine
end

section
/-! One iteration of a POLL, row by row (43_busy_poll R240 to R245), what a failed poll leaves, and the bound
of a POLL (R241, R243). -/

namespace Sys2Proof.Machine

/-! ## The rows of an iteration -/

/-- The core halted by a poll that failed on the bus: the poll is counted, `LAST_STATUS` is not written
(43_busy_poll R241). -/
def State.pollLost (s : State) : State :=
  State.raise { ({ s with dev := lostDevice s.dev }).sent (lostRecord s.cfg .readStatus 0 []) with
    pollCnt := s.pollCnt + 1 } .busTransactionError

section
variable {s t : State}

theorem pollResult_good (hok : s.okAt 0 = true) :
    pollResult (pollTxn s) = if s.wipNext then s.polled else s.polled.pollReady := by
  have hbusy : statusBusy s.statusNext = s.wipNext := statusByte_wip ..
  rw [pollTxn, txnRun_good hok, deviceRespond_readStatus]
  simp only [pollResult, List.headD_cons, if_true, hbusy]
  rfl

theorem pollResult_failed (hok : s.okAt 0 = false) : pollResult (pollTxn s) = s.pollLost := by
  rw [pollTxn, txnRun_failed hok]
  rfl

theorem pollStep_atBound (hm : s.cfg.maxPolls = some s.pollCnt.toNat) :
    pollStep s = .next (s.raise .deviceBusyTimeout) :=
  pollStep_eq_next.2 (.inl ⟨hm, rfl⟩)

theorem pollStep_overflow (hm : s.cfg.maxPolls = none) (hc : s.pollCnt = 0xFFFFFFFF) :
    pollStep s = .fault .pollCounterOverflow :=
  pollStep_eq_fault.2 ⟨hm, congrArg BitVec.toNat hc, rfl⟩

/-- Below the bound, and below the end of an unbounded count, the poll is issued. -/
theorem pollStep_polls (hbound : s.cfg.maxPolls ≠ some s.pollCnt.toNat)
    (hcount : s.cfg.maxPolls = none → s.pollCnt ≠ 0xFFFFFFFF) :
    pollStep s = .next (pollResult (pollTxn s)) :=
  pollStep_eq_next.2 (.inr ⟨hbound, fun ⟨hm, hc⟩ => hcount hm (BitVec.eq_of_toNat_eq hc), rfl⟩)

/-- A poll that fails on the bus (43_busy_poll R241). -/
theorem pollStep_failed (hbound : s.cfg.maxPolls ≠ some s.pollCnt.toNat)
    (hcount : s.cfg.maxPolls = none → s.pollCnt ≠ 0xFFFFFFFF) (hok : s.okAt 0 = false) :
    pollStep s = .next s.pollLost :=
  pollResult_failed hok ▸ pollStep_polls hbound hcount

/-! ## An iteration as a step of the machine -/

/-- A poll that leaves no RUN between two commands is the whole step, in a POLL of the host and of RUN. -/
theorem step_of_pollStep (hf : s.frame = none)
    (hp : s.phase = .running .poll ∨ s.phase = .running .runPoll) (hpoll : pollStep s = .next t)
    (ht : t.phase ≠ .running .run) : step s = .next t := by
  rcases hp with hp | hp
  · rw [step_polling hf hp, hpoll]
  · rw [step_pollingInRun hf hp, hpoll]
    exact congrArg _ (afterRunStep_of_ne ht)

theorem step_of_pollStep_fault {f : Fault} (hf : s.frame = none)
    (hp : s.phase = .running .poll ∨ s.phase = .running .runPoll) (hpoll : pollStep s = .fault f) :
    step s = .fault f := by
  rcases hp with hp | hp
  · rw [step_polling hf hp, hpoll]
  · rw [step_pollingInRun hf hp, hpoll]
    rfl

/-- A ready poll gives control back to the host, or to the RUN, which goes on (43_busy_poll R242). -/
theorem step_of_pollStep_ready (hf : s.frame = none)
    (hp : s.phase = .running .poll ∨ (s.phase = .running .runPoll ∧ s.opc.val < 12))
    (hpoll : pollStep s = .next s.polled.pollReady) :
    step s = .next
      (if s.phase = .running .poll then { s.polled with pollRdy := true, phase := .idle }
        else { s.polled with pollRdy := true, phase := .running .run, opc := s.opc + 1 }) := by
  rcases hp with hp | ⟨hp, hopc⟩
  · have hready : s.polled.pollReady = { s.polled with pollRdy := true, phase := .idle } := by
      rw [State.pollReady, show s.polled.phase = .running .poll from hp]
      rfl
    rw [step_polling hf hp, hpoll, if_pos hp, hready]
  · have hready : s.polled.pollReady = { s.polled with pollRdy := true, phase := .running .run } := by
      rw [State.pollReady, show s.polled.phase = .running .runPoll from hp]
      rfl
    rw [step_pollingInRun hf hp, hpoll, if_neg (by simp [hp]), hready]
    exact congrArg _ (afterRunStep_advance
      (t := { s.polled with pollRdy := true, phase := .running .run }) rfl hopc)

end

/-- Settles O39: what the iteration comes to in each row, as a step of the machine. -/
theorem pollStepTable : Obligations.PollStepTable := by
  intro s hf hp
  have hpolling : s.phase = .running .poll ∨ s.phase = .running .runPoll := hp.imp_right And.left
  have hwip : s.statusNext.getLsbD 0 = s.wipNext := statusByte_wip ..
  refine ⟨fun hm => step_of_pollStep hf hpolling (pollStep_atBound hm) nofun,
    fun hm hc => step_of_pollStep_fault hf hpolling (pollStep_overflow hm hc),
    fun hbound hcount => ?_⟩
  have hpoll := pollStep_polls hbound hcount
  refine ⟨fun hok => step_of_pollStep hf hpolling (pollStep_failed hbound hcount hok) nofun,
    fun hok hbusy => ?_, fun hok hready => ?_⟩
  · rw [pollResult_good hok, if_pos (hwip ▸ hbusy)] at hpoll
    refine step_of_pollStep hf hpolling hpoll (ne_of_eq_of_ne (b := s.phase) rfl ?_)
    rcases hpolling with h | h <;> simp [h]
  · rw [pollResult_good hok, hwip.symm.trans hready] at hpoll
    exact step_of_pollStep_ready hf hp hpoll

/-! ## A failed poll -/

/-- Settles O40: the first poll is the POLL begun there, a later one goes on from where it stands; a
halted core takes no step. -/
theorem pollBusErrorEndsThePoll : Obligations.PollBusErrorEndsThePoll := by
  intro s hf hok
  exact ⟨fun _ hbound => ⟨s.pollBegin.pollLost,
      pollStep_failed (s := s.pollBegin) hbound nofun hok, rfl, rfl, rfl, rfl, rfl, step_halted hf rfl⟩,
    fun hp hbound hcount => ⟨s.pollLost,
      step_of_pollStep hf hp (pollStep_failed hbound hcount hok) nofun,
      rfl, rfl, rfl, rfl, rfl, step_halted hf rfl⟩⟩

/-! ## The bound -/

/-- A halted core stays as it is for any number of steps (60_exceptions R302, R304). -/
theorem halted_run {s : State} (hf : s.frame = none) (hp : s.phase = .halted) (n : Nat) :
    SafeRun n s s := by
  induction n with
  | zero => exact SafeRun.zero s
  | succ n ih => exact SafeRun.step_cons (step_halted hf hp) ih

theorem afterRunStep_err (s : State) : (afterRunStep s).err = s.err := by
  unfold afterRunStep
  split
  · simp only [State.runAdvance]
    split <;> rfl
  all_goals rfl

section
variable {s t : State}

theorem Ends.not_timeout (k : Ends s t) (he : s.err ≠ some .deviceBusyTimeout) :
    t.err ≠ some .deviceBusyTimeout := by
  cases k with
  | done q => rwa [q.err]
  | halted _ hcode => simpa using hcode

/-- Without a bound an iteration ends in a timeout only if the error stood there before. -/
theorem pollStep_not_timeout (hm : s.cfg.maxPolls = none) (he : s.err ≠ some .deviceBusyTimeout)
    (hs : pollStep s = .next t) : t.err ≠ some .deviceBusyTimeout := by
  rcases pollStep_eq_next.1 hs with ⟨hbound, -⟩ | ⟨-, -, rfl⟩
  · simp [hm] at hbound
  cases hok : s.okAt 0
  · rw [pollResult_failed hok]
    nofun
  · rw [pollResult_good hok]
    split <;> exact he

theorem exec_not_timeout {i : Instr} (hwf : i.WellFormed) (hm : s.cfg.maxPolls = none)
    (he : s.err ≠ some .deviceBusyTimeout) (hx : exec i s = .next t) :
    t.err ≠ some .deviceBusyTimeout := by
  by_cases hpoll : i = .poll
  · subst hpoll
    exact pollStep_not_timeout (s := s.pollBegin) hm he hx
  by_cases hrun : i = .run
  · subst hrun
    cases hx
    exact he
  exact (exec_ends hwf hpoll hrun hx).not_timeout he

theorem step_not_timeout (hm : s.cfg.maxPolls = none) (he : s.err ≠ some .deviceBusyTimeout)
    (hs : step s = .next t) : t.err ≠ some .deviceBusyTimeout := by
  cases stepCase_of_step hs with
  | frame hf hd hx =>
    exact exec_not_timeout (s := { s with frame := none }) (decodeFrame_ok hd).2 hm he hx
  | waiting | writeAddr | programEnd | halted => exact he
  | @command _ rest _ _ hf hp hi hd hx =>
    exact exec_not_timeout (s := { s with inbox := rest }) (decodeCommand_wellFormed hd) hm he hx
  | polling hf hp hx => exact pollStep_not_timeout hm he hx
  | pollingInRun hf hp hx =>
    rw [afterRunStep_err]
    exact pollStep_not_timeout hm he hx
  | program hf hp hi hx =>
    rw [afterRunStep_err]
    exact exec_not_timeout (program_ok hi).1 hm he hx

end

/-- Settles O42: the first poll of `timeout_run` is the command's own step; without a bound only an error
that stood before could be the timeout. -/
theorem pollTimeout : Obligations.PollTimeout := by
  refine ⟨fun s m hf hp hm _ hmax hb hok hwip => ?_, fun s t hm herr hs => ?_⟩
  · obtain ⟨t, hstep, hrest⟩ := (timeout_run hf (.inl hp) hm hmax hb hok hwip).succ
    exact ⟨t, _, (step_pollBegin_idle hf hp).symm.trans hstep, hrest, halted_run hf rfl, rfl, rfl,
      Nat.mod_eq_of_lt (by omega), rfl, rfl, rfl⟩
  · have he : s.err ≠ some .deviceBusyTimeout := by simp [herr]
    rcases hs with hx | hs
    · exact exec_not_timeout rfl hm he hx
    · exact step_not_timeout hm he hs

end Sys2Proof.Machine
end

section
/-! The orchestrator's own commands: what CHKFF, FILL and CMP do, and their words (44_orchestrator R260 to
R262). -/

namespace Sys2Proof.Machine

/-! ## The words -/

theorem encode_chkff (b : BufId) :
    encode (.chkff b) = .command (0x00000005 ||| BitVec.ofNat 32 (bufId b) <<< 4) := by
  simp [encode, commandWord_eq]

theorem encode_fill (b : BufId) :
    encode (.fill b) = .command (0x00000006 ||| BitVec.ofNat 32 (bufId b) <<< 4) := by
  simp [encode, commandWord_eq]

theorem encode_cmp (x y : BufId) :
    encode (.cmp x y) = .command (0x00000007 ||| BitVec.ofNat 32 (bufId y) <<< 8
      ||| BitVec.ofNat 32 (bufId x) <<< 4) := by
  simp [encode, commandWord_eq]

/-! ## A page that was read -/

section
variable {s : State} {b x y : BufId} {u v : List Byte}

theorem bufRead_page_cells (h : bufRead b 0 pageSize s = .ok v) :
    v.length = 64 ∧ ∀ i, (hi : i < 64) → (s.buf b)[i] = v[i]? := by
  have hbytes : (s.buf b).bytes 0 pageSize = some v := by
    unfold bufRead at h
    split at h
    · next hv => cases h; exact hv
    · cases h
  simpa using (Buffer.bytes_eq_some_iff_cells le_rfl).1 hbytes

theorem all_erased_iff (h : bufRead b 0 pageSize s = .ok v) :
    v.all (· == erased) = true ↔ ∀ i, (hi : i < 64) → (s.buf b)[i] = some 0xFF := by
  obtain ⟨hlen, hcells⟩ := bufRead_page_cells h
  simp only [List.all_eq_true, List.forall_mem_iff_getElem, hlen]
  refine forall₂_congr fun i hi => ?_
  rw [hcells i hi, List.getElem?_eq_getElem (hlen ▸ hi)]
  simp

theorem pages_eq_iff (hu : bufRead x 0 pageSize s = .ok u) (hv : bufRead y 0 pageSize s = .ok v) :
    u = v ↔ ∀ i, (hi : i < 64) → (s.buf x)[i] = (s.buf y)[i] := by
  obtain ⟨hulen, hucells⟩ := bufRead_page_cells hu
  obtain ⟨hvlen, hvcells⟩ := bufRead_page_cells hv
  constructor
  · rintro rfl i hi
    rw [hucells i hi, hvcells i hi]
  · intro heq
    refine List.ext_getElem? fun i => ?_
    by_cases hi : i < 64
    · rw [← hucells i hi, ← hvcells i hi, heq i hi]
    · rw [List.getElem?_eq_none (by omega), List.getElem?_eq_none (by omega)]

/-! ## The commands -/

theorem exec_chkff_of_read (hv : bufRead b 0 pageSize s = .ok v) :
    exec (.chkff b) s = .next (if v.all (· == erased) then s else s.raise .eraseVerifyMismatch) :=
  guardFault_eq_next.2 ⟨v, hv, rfl⟩

theorem exec_cmp_of_reads (hu : bufRead x 0 pageSize s = .ok u) (hv : bufRead y 0 pageSize s = .ok v) :
    exec (.cmp x y) s = .next (if u = v then s else s.raise .programReadbackMismatch) :=
  guardFault_eq_next.2 ⟨u, hu, guardFault_eq_next.2 ⟨v, hv, rfl⟩⟩

/-- CMP reads `x` first, but both reads fault alike. -/
theorem exec_cmp_unwritten
    (h : ∃ i, ∃ hi : i < 64, (s.buf x)[i] = none ∨ (s.buf y)[i] = none) :
    exec (.cmp x y) s = .fault .unwrittenRead := by
  by_cases hx : ∃ i, ∃ hi : i < 64, (s.buf x)[i] = none
  · exact guardFault_error (bufRead_page_unwritten hx)
  · have hwritten : ∀ i, (hi : i < 64) → (s.buf x)[i] ≠ none := fun i hi hnone => hx ⟨i, hi, hnone⟩
    obtain ⟨i, hi, hnone⟩ := h
    have hy : bufRead y 0 pageSize s = .error .unwrittenRead :=
      bufRead_page_unwritten ⟨i, hi, hnone.resolve_left (hwritten i hi)⟩
    obtain ⟨u, hu⟩ := bufRead_page_written hwritten
    exact guardFault_eq_fault.2 (.inr ⟨u, hu, guardFault_error hy⟩)

end

/-- Settles O43: the pattern fills the whole page. -/
theorem fillResult : Obligations.FillResult := by
  intro s b
  have hput : (s.buf b).put 0 fillPattern = Vector.ofFn fun i => some (BitVec.ofNat 8 i.val) := by
    rw [Buffer.put_page _ fillPattern_length]
    ext1 i hi
    simp [Buffer.getElem_ofBytes, fillPattern, hi]
  exact ⟨encode_fill b, by rw [← hput]; rfl⟩

/-- Settles O44: the read of the page, then the comparison with 0xFF cell by cell. -/
theorem checkErasedResult : Obligations.CheckErasedResult := by
  intro s b
  refine ⟨encode_chkff b, fun herased => ?_, fun hwritten hother => ?_,
    fun hnone => guardFault_error (bufRead_page_unwritten hnone)⟩
  · obtain ⟨v, hv⟩ := bufRead_page_written (s := s) (b := b) fun i hi => by simp [herased i hi]
    rw [exec_chkff_of_read hv, if_pos ((all_erased_iff hv).2 herased)]
  · obtain ⟨v, hv⟩ := bufRead_page_written hwritten
    obtain ⟨i, hi, hne⟩ := hother
    rw [exec_chkff_of_read hv, if_neg fun hall => hne ((all_erased_iff hv).1 hall i hi)]

/-- Settles O45: the two reads, then the comparison cell by cell. -/
theorem compareResult : Obligations.CompareResult := by
  intro s x y
  refine ⟨encode_cmp x y, fun hwritten => ?_, exec_cmp_unwritten⟩
  obtain ⟨u, hu⟩ := bufRead_page_written fun i hi => (hwritten i hi).1
  obtain ⟨v, hv⟩ := bufRead_page_written fun i hi => (hwritten i hi).2
  rw [exec_cmp_of_reads hu hv]
  refine ⟨fun heq => by rw [if_pos ((pages_eq_iff hu hv).2 heq)], ?_⟩
  rintro ⟨i, hi, hne⟩
  rw [if_neg fun heq => hne ((pages_eq_iff hu hv).1 heq i hi)]

end Sys2Proof.Machine
end

section
/-! The sequencing of a RUN: a step inside it is the program's command at `OPC`, whole or one poll of it, and
what `OPC` and the pass make of that; how such a step ends, and with which error (44_orchestrator R270 to
R276). -/

namespace Sys2Proof.Machine

/-- Settles O3: the fourteen slots, evaluated one by one. -/
theorem programIsTheFixedSequence : Obligations.ProgramIsTheFixedSequence := by
  unfold Obligations.ProgramIsTheFixedSequence
  decide

/-- The last command of RUN completes, and the RUN passes (44_orchestrator R275). -/
theorem afterRunStep_pass {t : State} (hp : t.phase = .running .run) (ho : t.opc.val = 12) :
    afterRunStep t = ({ t with opc := 13 } : State).runPass := by
  have hopc : t.opc = 12 := Fin.ext ho
  simp [afterRunStep, hp, State.runAdvance, hopc, opcNext]

/-- Settles O2: the equation of `step` for a command of RUN, and what `afterRunStep` makes of each ending. -/
theorem stepRunsTheProgramOfARun : Obligations.StepRunsTheProgramOfARun := by
  intro s i hf hp hi
  rw [step_program hf hp hi]
  refine ⟨fun f hx => by rw [hx]; rfl, fun t hx => ?_⟩
  rw [hx]
  exact ⟨fun ht => congrArg _ (afterRunStep_of_ne (by simp [ht])),
    fun ht => congrArg _ (afterRunStep_of_ne (by simp [ht])),
    fun ht ho => congrArg _ (afterRunStep_advance ht ho),
    fun ht ho => congrArg _ (afterRunStep_pass ht ho)⟩

/-! ## A step inside RUN -/

section
variable {s t : State}

/-- What a step inside RUN executed: the program's command at `OPC`, or one more poll of it if that is
POLL. -/
theorem step_inRun (h : s.Inv) (hf : s.frame = none) (hr : s.phase.inRun = true)
    (hs : step s = .next t) :
    ∃ i u, program s.opc = some i ∧ t = afterRunStep u ∧
      (exec i s = .next u ∨ i = .poll ∧ pollStep s = .next u) := by
  cases stepCase_of_step hs with
  | frame hf' => simp [hf] at hf'
  | waiting _ hp | writeAddr _ hp | command _ hp | polling _ hp | halted _ hp =>
    simp [hp, Phase.inRun] at hr
  | pollingInRun _ hp hx => exact ⟨_, _, h.run_polls hp, rfl, .inr ⟨rfl, hx⟩⟩
  | program _ _ hi hx => exact ⟨_, _, hi, rfl, .inl hx⟩
  | programEnd _ _ hi =>
    have hlt : s.opc.val < 13 := (h.run_going hr).1
    simp [program_eq_none.1 hi] at hlt

theorem State.Inv.err_of_inRun (h : s.Inv) (hr : s.phase.inRun = true) : s.err = none :=
  h.err_eq_none fun hp => by simp [hp, Phase.inRun] at hr

/-! ## How it ends -/

/-- `t` holds the registers of a RUN as `s` does: they are as they were, inside RUN or not, or as they were
in a halt that logs its failure. -/
inductive KeepsRun (s : State) : State → Prop
  | live {t : State} (inRun : t.phase.inRun = s.phase.inRun := by rfl) (runT : t.runT = s.runT := by rfl)
      (opc : t.opc = s.opc := by rfl) (pass : t.pass = s.pass := by rfl)
      (err : t.err = s.err := by rfl) : KeepsRun s t
  | halted {u : State} {e : CoreError} (runT : u.runT = s.runT := by rfl) (opc : u.opc = s.opc := by rfl)
      (pass : u.pass = s.pass := by rfl) (log : u.log = s.log := by rfl) : KeepsRun s (u.raise e)

theorem Ends.keepsRun (k : Ends s t) : KeepsRun s t := by
  cases k with
  | done q => exact .live (congrArg Phase.inRun q.phase) q.runT q.opc q.pass q.err
  | halted q _ => exact .halted q.runT q.opc q.pass q.log_eq

theorem pollStep_keepsRun (hs : pollStep s = .next t) : KeepsRun s t := by
  rcases pollStep_eq_next.1 hs with ⟨-, rfl⟩ | ⟨-, -, rfl⟩
  · exact .halted
  cases hok : s.okAt 0 with
  | false =>
    rw [pollResult_failed hok]
    exact .halted
  | true =>
    rw [pollResult_good hok]
    split
    · exact .live
    · exact .live (polledPhase_inRun s.phase)

theorem KeepsRun.of_pollBegin (k : KeepsRun s.pollBegin t) : KeepsRun s t := by
  cases k with
  | live inRun runT opc pass err =>
    exact .live (inRun.trans (pollingPhase_inRun s.phase)) runT opc pass err
  | halted runT opc pass log => exact .halted runT opc pass log

theorem exec_keepsRun {i : Instr} (hwf : i.WellFormed) (hrun : i ≠ .run) (hx : exec i s = .next t) :
    KeepsRun s t := by
  by_cases hpoll : i = .poll
  · subst hpoll
    exact (pollStep_keepsRun hx).of_pollBegin
  · exact (exec_ends hwf hpoll hrun hx).keepsRun

/-- CMP logs nothing unless it halts. -/
theorem cmp_log {x y : BufId} (hx : exec (.cmp x y) s = .next t) (hlive : t.phase ≠ .halted) :
    t.log = s.log := by
  obtain ⟨u, -, hy⟩ := guardFault_eq_next.1 hx
  obtain ⟨v, -, hend⟩ := guardFault_eq_next.1 hy
  cases hend
  split at hlive
  · next heq => rw [if_pos heq]
  · exact absurd rfl hlive

theorem program_last {o : Fin 14} (h : o.val = 12) : program o = some (.cmp .D .P) := by
  obtain rfl : o = 12 := Fin.ext h
  rfl

/-- The last command of RUN is CMP, so when the RUN passes nothing else is logged. -/
theorem lastCommand_log {i : Instr} (ho : s.opc.val = 12) (hi : program s.opc = some i)
    (hx : exec i s = .next t ∨ i = .poll ∧ pollStep s = .next t) (hlive : t.phase ≠ .halted) :
    t.log = s.log := by
  obtain rfl : .cmp .D .P = i := Option.some.inj ((program_last ho).symm.trans hi)
  rcases hx with hx | ⟨hpoll, -⟩
  · exact cmp_log hx hlive
  · cases hpoll

end

/-- Settles O47: what the step executed keeps the registers of the RUN, live or in a halt; `OPC` then moves
on only if that left the RUN between two commands, and the move from the last command is the pass. -/
theorem runIsAllOrNothing : Obligations.RunIsAllOrNothing := by
  intro s t h hf hr hs
  obtain ⟨hopc, hpass⟩ := h.run_going hr
  have herr : s.err = none := h.err_of_inRun hr
  obtain ⟨i, u, hi, rfl, hx⟩ := step_inRun h hf hr hs
  have hkeeps : KeepsRun s u := by
    rcases hx with hx | ⟨-, hx⟩
    · exact exec_keepsRun (program_ok hi).1 (program_ok hi).2 hx
    · exact pollStep_keepsRun hx
  cases hkeeps with
  | halted runT opc pass log =>
    rw [afterRunStep_of_ne (by simp)]
    exact ⟨runT, .inr (.inr ⟨rfl, pass.trans hpass, opc, _, rfl, log ▸ rfl⟩)⟩
  | live inRun runT opc pass err =>
    by_cases hp : u.phase = .running .run
    · by_cases ho : s.opc.val < 12
      · have hnext : (u.opc + 1).val = s.opc.val + 1 := by
          rw [opc]
          exact Fin.val_add_one_of_lt (Fin.lt_def.2 (Nat.lt_succ_of_lt ho))
        rw [afterRunStep_advance hp (opc ▸ ho)]
        exact ⟨runT, .inl ⟨inRun.trans hr, pass.trans hpass, err.trans herr, .inr hnext⟩⟩
      · have h12 : s.opc.val = 12 := by omega
        have hlog : u.log = s.log := lastCommand_log h12 hi hx (by simp [hp])
        rw [afterRunStep_pass hp (opc ▸ h12)]
        exact ⟨runT, .inr (.inl ⟨rfl, rfl, err.trans herr, h12, rfl, hlog ▸ rfl⟩)⟩
    · rw [afterRunStep_of_ne hp]
      exact ⟨runT, .inl ⟨inRun.trans hr, pass.trans hpass, err.trans herr, .inl opc⟩⟩

/-! ## The errors by the command -/

/-- The errors a command can raise (60_exceptions R300). -/
def commandErrors : Instr → List CoreError
  | .enc .. | .dec .. => [.cipherEngineError]
  | .xactReadStatus | .xactWriteEnable | .xactSectorErase | .xactQuadPageProgram _
  | .xactQuadIoRead _ => [.busTransactionError]
  | .poll => [.busTransactionError, .deviceBusyTimeout]
  | .chkff _ => [.eraseVerifyMismatch]
  | .cmp .. => [.programReadbackMismatch]
  | _ => []

/-- `ERR` of `t` is that of `s`, or one of the errors `es`. -/
def RaisesOnly (es : List CoreError) (s t : State) : Prop :=
  t.err = s.err ∨ ∃ e ∈ es, t.err = some e

section
variable {s t : State}

theorem engineCommand_raises {f : List Col → AesState → AesState} {tag : DumpTag} {src dst : BufId}
    {n : Nat} (h : engineCommand f tag src dst n s = .next t) :
    RaisesOnly [.cipherEngineError] s t := by
  unfold engineCommand at h
  split at h
  · cases h
    exact .inl rfl
  · obtain ⟨input, -, hend⟩ := guardFault_eq_next.1 h
    rw [engineCall_eq] at hend
    cases hend
    unfold engineEnd
    split
    · exact .inl rfl
    · exact .inr ⟨_, List.mem_singleton_self _, rfl⟩

theorem GoesOut.err_eq {c : Except Fault TxnDone} (hc : GoesOut s c) {x : TxnDone} (hx : c = .ok x) :
    x.state.err = s.err := by
  obtain ⟨d, k, a, out, -, rfl⟩ := hc x hx
  obtain ⟨_, _, _, hstate⟩ := txnRun_frame d k a out s
  rw [hstate]

theorem GoesOut.xact_raises {c : Except Fault TxnDone} {onOk : List Byte → State → State}
    {onFail : State → State} (hc : GoesOut s c)
    (h : guardFault c (finishTxn onOk onFail) = .next t) (hok : ∀ v u, (onOk v u).err = u.err) :
    RaisesOnly [.busTransactionError] s t := by
  obtain ⟨x, hx, hfin⟩ := guardFault_eq_next.1 h
  cases hfin
  split
  · exact .inl ((hok ..).trans (hc.err_eq hx))
  · exact .inr ⟨_, List.mem_singleton_self _, rfl⟩

theorem pollStep_raises (hs : pollStep s = .next t) : RaisesOnly (commandErrors .poll) s t := by
  rcases pollStep_eq_next.1 hs with ⟨-, rfl⟩ | ⟨-, -, rfl⟩
  · exact .inr ⟨.deviceBusyTimeout, by decide, rfl⟩
  cases hok : s.okAt 0 with
  | false =>
    rw [pollResult_failed hok]
    exact .inr ⟨.busTransactionError, by decide, rfl⟩
  | true =>
    rw [pollResult_good hok]
    split <;> exact .inl rfl

theorem exec_raises {i : Instr} (hwf : i.WellFormed) (hx : exec i s = .next t) :
    RaisesOnly (commandErrors i) s t := by
  cases i with
  | enc => exact engineCommand_raises hx
  | dec => exact engineCommand_raises hx
  | xactReadStatus => exact statusTxn_goesOut.xact_raises hx fun _ _ => rfl
  | xactWriteEnable => exact enableTxn_goesOut.xact_raises hx fun _ _ => rfl
  | xactSectorErase => exact eraseTxn_goesOut.xact_raises hx fun _ _ => rfl
  | xactQuadPageProgram => exact programTxn_goesOut.xact_raises hx fun _ _ => rfl
  | xactQuadIoRead => exact readTxn_goesOut.xact_raises hx fun _ _ => rfl
  | poll => exact pollStep_raises (s := s.pollBegin) hx
  | chkff b =>
    obtain ⟨v, -, hend⟩ := guardFault_eq_next.1 hx
    cases hend
    split
    · exact .inl rfl
    · exact .inr ⟨_, List.mem_singleton_self _, rfl⟩
  | cmp x y =>
    obtain ⟨u, -, hy⟩ := guardFault_eq_next.1 hx
    obtain ⟨v, -, hend⟩ := guardFault_eq_next.1 hy
    cases hend
    split
    · exact .inl rfl
    · exact .inr ⟨_, List.mem_singleton_self _, rfl⟩
  | fill | run =>
    cases hx
    exact .inl rfl
  | flashReadStatus | flashWriteEnable | flashSectorErase | flashQuadPageProgram | flashQuadIoRead =>
    exact .inl (exec_frame_silent rfl hwf hx).err

/-- An error that stands after a step inside RUN is one of the program's command at `OPC`. -/
theorem step_inRun_error {e : CoreError} (h : s.Inv) (hf : s.frame = none)
    (hr : s.phase.inRun = true) (hs : step s = .next t) (he : t.err = some e) :
    ∃ i, program s.opc = some i ∧ e ∈ commandErrors i := by
  obtain ⟨i, u, hi, rfl, hx⟩ := step_inRun h hf hr hs
  have hraises : RaisesOnly (commandErrors i) s u := by
    rcases hx with hx | ⟨rfl, hx⟩
    · exact exec_raises (program_ok hi).1 hx
    · exact pollStep_raises hx
  rw [afterRunStep_err] at he
  rcases hraises with hsame | ⟨e', hmem, he'⟩
  · simp [he, h.err_of_inRun hr] at hsame
  · obtain rfl : e' = e := Option.some.inj (he'.symm.trans he)
    exact ⟨i, hi, hmem⟩

end

/-- The errors of the program's commands, by the index (44_orchestrator R276). -/
theorem program_errors : ∀ o, ∀ i ∈ program o, ∀ e ∈ commandErrors i,
    (o.val ∈ [0, 1, 3, 7, 8, 10] → e = .busTransactionError) ∧
    (o.val ∈ [2, 9] → e = .busTransactionError ∨ e = .deviceBusyTimeout) ∧
    (o.val = 4 → e = .eraseVerifyMismatch) ∧
    o.val ≠ 5 ∧
    (o.val = 6 ∨ o.val = 11 → e = .cipherEngineError) ∧
    (o.val = 12 → e = .programReadbackMismatch) := by
  decide

/-- Settles O48: the errors of the program's commands; the invariant after the step gives a timeout its
bound. -/
theorem runErrorsByStep : Obligations.RunErrorsByStep := by
  intro s t e h hf hr hs he
  obtain ⟨i, hi, hmem⟩ := step_inRun_error h hf hr hs he
  obtain ⟨hbus, hpoll, hrest⟩ := program_errors s.opc i hi e hmem
  have hbound (htimeout : e = .deviceBusyTimeout) : s.cfg.maxPolls ≠ none :=
    (step_history hs).cfg ▸ (invStep s t h hs).timeout_bounded (htimeout ▸ he)
  exact ⟨hbus, fun ho => (hpoll ho).imp_right fun htimeout => ⟨htimeout, hbound htimeout⟩, hrest⟩

end Sys2Proof.Machine
end

section
/-! The fatal halt as a step: what the step that halts the core writes and keeps (60_exceptions R302, R304). -/

namespace Sys2Proof.Machine

section
variable {s t : State}

/-- An error that was not there before is one that a halt raised and logged. -/
theorem KeepsRun.raised (k : KeepsRun s t) (hne : t.err ≠ s.err) :
    (∃ e, t.err = some e ∧ t.log = s.log ++ [.fail e]) ∧ t.opc = s.opc ∧ t.pass = s.pass := by
  cases k with
  | live _ _ _ _ err => exact absurd err hne
  | halted _ opc pass log => exact ⟨⟨_, rfl, log ▸ rfl⟩, opc, pass⟩

/-- Outside RUN only a host command or a poll of the host's POLL writes `ERR`; RUN's start does not. -/
theorem step_outsideRun_raised (hf : s.frame = none) (hr : s.phase.inRun = false)
    (hs : step s = .next t) (hne : t.err ≠ s.err) :
    (∃ e, t.err = some e ∧ t.log = s.log ++ [.fail e]) ∧ t.opc = s.opc ∧ t.pass = s.pass := by
  cases stepCase_of_step hs with
  | frame hf' => simp [hf] at hf'
  | waiting | writeAddr | halted => exact absurd rfl hne
  | @command _ rest i _ _ _ _ hd hx =>
    by_cases hrun : i = .run
    · subst hrun
      cases hx
      exact absurd rfl hne
    · exact (exec_keepsRun (s := { s with inbox := rest }) (decodeCommand_wellFormed hd) hrun hx).raised hne
  | polling _ _ hx => exact (pollStep_keepsRun hx).raised hne
  | pollingInRun _ hp | program _ hp | programEnd _ hp => simp [hp, Phase.inRun] at hr

end

/-- Settles O55: inside RUN a halt is the third ending of its steps (O47); outside it the invariant makes the
error a new one; a halted core takes no step. -/
theorem haltingStep : Obligations.HaltingStep := by
  refine ⟨fun _ _ => rfl, fun s t h hf hp hs ht => ?_, fun _ n hp hf => halted_run hf hp n⟩
  have hinv : t.Inv := invStep s t h hs
  have hfault : t.fault = true := hinv.fault_halted.2 ht
  cases hr : s.phase.inRun with
  | true =>
    rcases (runIsAllOrNothing s t h hf hr hs).2 with ⟨hrun, -⟩ | ⟨hidle, -⟩ | ⟨-, hpass, hopc, herr⟩
    · simp [ht, Phase.inRun] at hrun
    · simp [ht] at hidle
    · exact ⟨herr, hfault, hopc, fun _ => hpass, nofun⟩
  | false =>
    have hne : t.err ≠ s.err := h.err_eq_none hp ▸ hinv.err_halted.2 ht
    obtain ⟨herr, hopc, hpass⟩ := step_outsideRun_raised hf hr hs hne
    exact ⟨herr, hfault, hopc, nofun, fun _ => hpass⟩

end Sys2Proof.Machine
end
